-- ==== Sys2Proof/Word.lean ====
section
/-! DEFINITION. The word types of the block: a byte (R9), the 16-bit CRC register and stimulus word (R21, R104). -/

namespace Sys2Proof

/-- A byte: 8 bits, value 0 to 255 (R9). Every buffer element and every wire byte is one. -/
abbrev Byte := BitVec 8

/-- A 16-bit value: the CRC register, a CRC result (R21, R126) or a stimulus word (R104). -/
abbrev Half := BitVec 16

end Sys2Proof
end

