-- ==== Sys2Proof/Config.lean ====
section
/-! DEFINITION. The implementation parameters of R7: the protocol constants the spec fixes, and the OPEN capacities,
which are fixed when the block is built (R325) and to which this model gives no value. -/

namespace Sys2Proof

/-- Seed of the CRC register (R7, R121). -/
def Config.crcInit : Half := 0xFFFF

/-- Value XORed into the final CRC (R7, R121, R126). -/
def Config.crcXorout : Half := 0xFFFF

/-- The CRC polynomial in reflected form (R7, R121). The spec itself marks the number as supplied from general
knowledge (93 G1). UNVERIFIED, log entry 6. -/
def Config.crcPolyReflected : Half := 0x8408

/-- Frame delimiter on the FET link (R7). -/
def Config.fetSentinel : Byte := 0x7E

/-- Escape introducer on the FET link (R7). -/
def Config.fetEscape : Byte := 0x7D

/-- Value XORed into an escaped byte, on both links (R7). -/
def Config.escXor : Byte := 0x20

/-- Start of a wrapped RSP frame, `$` (R9, R87). -/
def Config.rspStart : Byte := 0x24

/-- End of an RSP payload, `#` (R9, R87). -/
def Config.rspEnd : Byte := 0x23

/-- RSP escape introducer (R9, R89). The same value as `Config.fetEscape`, on the other link. -/
def Config.rspEscape : Byte := 0x7D

/-- The bare ACK byte, `+` (R9, R88). -/
def Config.rspAck : Byte := 0x2B

/-- The bare NAK byte, `-` (R9, R88). -/
def Config.rspNak : Byte := 0x2D

/-- The set of payload byte values `GTX` escapes (R7, R89). -/
def Config.rspTxEscset : List Byte := [0x23, 0x24, 0x7D]

/-- The OPEN parameters of R7, which "a model takes as an argument". They are fixed when the block is built (R325):
no operation reads them as data and none changes them. `none` in a field that allows it means unbounded. -/
structure Params where
  /-- `FET_RX_CAP`, assembled bytes the `FRX` buffer holds, checksum included; at least 2. -/
  fetRxCap : Nat
  /-- `RSP_RX_CAP`, unescaped payload bytes the `GRX` buffer holds; at least 1. -/
  rspRxCap : Nat
  /-- `MAX_TX_PAYLOAD`, largest payload `FTX.PUSH` and `GTX.PUSH` stage; at least 0, or unbounded. -/
  maxTxPayload : Option Nat
  /-- `FET_TXQ_DEPTH`, frames the `FTX` queue holds; at least 1, or unbounded. -/
  fetTxqDepth : Option Nat
  /-- `RSP_TXQ_DEPTH`, frames the `GTX` queue holds; at least 1, or unbounded. -/
  rspTxqDepth : Option Nat
  deriving DecidableEq, Repr

/-- The bounds R7 puts on the OPEN parameters. -/
abbrev Params.Ok (p : Params) : Prop :=
  2 ≤ p.fetRxCap ∧ 1 ≤ p.rspRxCap ∧ (∀ d ∈ p.fetTxqDepth, 1 ≤ d) ∧ (∀ d ∈ p.rspTxqDepth, 1 ≤ d)

/-- How far `FET_RX_CAP` exceeds its least value 2. No body: nothing can evaluate it (log entry 1). -/
opaque Config.fetRxRoom : Nat

/-- How far `RSP_RX_CAP` exceeds its least value 1. No body (log entry 1). -/
opaque Config.rspRxRoom : Nat

/-- `MAX_TX_PAYLOAD`, or unbounded. No body (log entry 1). -/
opaque Config.maxTxPayload : Option Nat

/-- How far `FET_TXQ_DEPTH` exceeds its least value 1, or unbounded. No body (log entry 1). -/
opaque Config.fetTxqRoom : Option Nat

/-- How far `RSP_TXQ_DEPTH` exceeds its least value 1, or unbounded. No body (log entry 1). -/
opaque Config.rspTxqRoom : Option Nat

/-- The parameters of the block the model's reset state describes: any values R7 allows, and no one of them. -/
def Config.params : Params where
  fetRxCap := Config.fetRxRoom + 2
  rspRxCap := Config.rspRxRoom + 1
  maxTxPayload := Config.maxTxPayload
  fetTxqDepth := Config.fetTxqRoom.map (· + 1)
  rspTxqDepth := Config.rspTxqRoom.map (· + 1)

end Sys2Proof
end

