-- ==== Sys2Proof/Machine/Bits.lean ====
section
/-! DEFINITION. Bit fields, byte order and the ASCII hex digits: the helpers of R10, R64, R104, R145 and R146. -/

namespace Sys2Proof.Machine

/-- `lo8(v)` = `v[7:0]` (R10). -/
def lo8 (v : Half) : Byte := v.extractLsb' 0 8

/-- `hi8(v)` = `v[15:8]` (R10). -/
def hi8 (v : Half) : Byte := v.extractLsb' 8 8

/-- The 16-bit value whose low byte is `lo` and whose high byte is `hi`: the low byte travels first on the FET link
(R64, R176). -/
def half (lo hi : Byte) : Half := lo.setWidth 16 ||| (hi.setWidth 16 <<< 8)

/-- The high nibble `v[7:4]` as a byte value 0 to 15. -/
def hiNibble (v : Byte) : Byte := v >>> 4

/-- The low nibble `v[3:0]` as a byte value 0 to 15. -/
def loNibble (v : Byte) : Byte := v &&& 0x0F

/-- `digit(n)` of R145: the lower-case ASCII hex digit of a value 0 to 15. -/
def hexDigit (n : Byte) : Byte := if n ≤ 9 then 0x30 + n else 0x61 + (n - 10)

/-- `hex2(v)[0]`, the digit sent first (R145, R242). -/
def hexHigh (v : Byte) : Byte := hexDigit (hiNibble v)

/-- `hex2(v)[1]`, the digit sent second (R145, R243). -/
def hexLow (v : Byte) : Byte := hexDigit (loNibble v)

/-- `hex2(v)`: two lower-case ASCII hex digits, the high nibble's first (R90, R145). -/
def hex2 (v : Byte) : List Byte := [hexHigh v, hexLow v]

/-- `hexval(b)`: the value 0 to 15 of a hex digit of either case, or none (R90, R146). -/
def hexval (b : Byte) : Option Byte :=
  if 0x30 ≤ b ∧ b ≤ 0x39 then some (b - 0x30)
  else if 0x61 ≤ b ∧ b ≤ 0x66 then some (b - 0x61 + 10)
  else if 0x41 ≤ b ∧ b ≤ 0x46 then some (b - 0x41 + 10)
  else none

/-- Whether a FET byte must be escaped: it is 0x7E or 0x7D (R81). -/
def fetReserved (b : Byte) : Bool := b == Config.fetSentinel || b == Config.fetEscape

/-- Whether `GTX` escapes a payload byte: it is in `RSP_TX_ESCSET` (R89). -/
def rspReserved (b : Byte) : Bool := Config.rspTxEscset.contains b

/-- The operation code of a stimulus word: `unit` and `op` as one byte, bits 15:8 (R104, R105). -/
def codeOf (w : Half) : Byte := hi8 w

/-- The operand byte of a stimulus word, bits 7:0 (R104). -/
def dataOf (w : Half) : Byte := lo8 w

/-- The `rdy` bit of a transmit step's operand: bit 0, the other seven bits ignored (R105, R151, R234). -/
def rdyOf (d : Byte) : Bool := d.getLsbD 0

/-- The operand byte the assembler writes for a `rdy` bit (R105). -/
def ofRdy (r : Bool) : Byte := if r then 1 else 0

/-- The stimulus word with code `c` and operand byte `d` (R104). -/
def stimulusWord (c d : Byte) : Half := half d c

end Sys2Proof.Machine
end

