-- ==== Sys2Proof/Machine/Checksum.lean ====
section
/-! DEFINITION. The pure checksum functions `crc16` (R120 to R130) and `sum8` (R140 to R148), and the step of each unit's
register. -/

namespace Sys2Proof.Machine

/-- One reflected shift step of R122. -/
def crcShift (v : Half) : Half :=
  if v.getLsbD 0 then (v >>> 1) ^^^ Config.crcPolyReflected else v >>> 1

/-- Table entry `T[i]`: eight shift steps on the index (R122). -/
def crcTable (i : Byte) : Half :=
  crcShift (crcShift (crcShift (crcShift (crcShift (crcShift (crcShift (crcShift (i.setWidth 16))))))))

/-- The register after one byte, table form: `T[idx] XOR (crc_reg >> 8)` (R125). -/
def crcStep (c : Half) (b : Byte) : Half :=
  crcTable (lo8 (c ^^^ b.setWidth 16)) ^^^ (c >>> 8)

/-- The register after bit `fb XOR crc_reg[0]` of the bit-serial form (R125). -/
def crcBit (c : Half) (bit : Bool) : Half :=
  if bit ^^ c.getLsbD 0 then (c >>> 1) ^^^ Config.crcPolyReflected else c >>> 1

/-- The register after one byte, bit-serial form, bit 0 of the byte first (R125). -/
def crcSerial (c : Half) (b : Byte) : Half :=
  (List.range 8).foldl (fun c i => crcBit c (b.getLsbD i)) c

/-- The register after a byte sequence, from register value `c` (R127). -/
def crcFrom (c : Half) (p : List Byte) : Half := p.foldl crcStep c

/-- The read-out: the bitwise complement of the register (R126). -/
def crcOut (c : Half) : Half := c ^^^ Config.crcXorout

/-- `crc16(P)` (R127). -/
def crc16 (p : List Byte) : Half := crcOut (crcFrom Config.crcInit p)

/-- The register after one byte: addition modulo 256 (R142). -/
def sumStep (a b : Byte) : Byte := a + b

/-- `sum8(P)` (R144). -/
def sum8 (p : List Byte) : Byte := p.foldl sumStep 0

end Sys2Proof.Machine
end

