-- ==== Sys2Proof/Syntax.lean ====
section
/-! DEFINITION. The operations of the block: one constructor for each row of spec/opcode_table.json, the nineteen
stimulus operations of R105 and the nine wire-byte rows of R80 to R90; and the two kinds of encoding they have. -/

namespace Sys2Proof

/-- One operation of the block. The first nineteen are the stimulus operations of R105; the last nine are the wire-byte
rows of the opcode table, each standing for the reception of that byte on its link (R14, R84, R92; log entry 2). -/
inductive Instr where
  /-- `SYS.RESET` (R260). -/
  | sysReset
  /-- `FET.TEARDOWN` (R261). -/
  | fetTeardown
  /-- `RSP.TEARDOWN` (R262). -/
  | rspTeardown
  /-- `STAT.READ i`, counter index 0 to 13 (R264). -/
  | statRead (i : Byte)
  /-- `CRC.INIT` (R124). -/
  | crcInit
  /-- `CRC.UPD b` (R125). -/
  | crcUpd (b : Byte)
  /-- `CRC.FIN` (R126). -/
  | crcFin
  /-- `SUM.INIT` (R141). -/
  | sumInit
  /-- `SUM.UPD b` (R142). -/
  | sumUpd (b : Byte)
  /-- `SUM.FIN` (R143). -/
  | sumFin
  /-- `FTX.PUSH b` (R150). -/
  | ftxPush (b : Byte)
  /-- `FTX.ENQ` (R160). -/
  | ftxEnq
  /-- `FTX.STEP r`, with `rdy` the operand's bit 0 (R151). -/
  | ftxStep (rdy : Bool)
  /-- `FRX.BYTE b` (R170). -/
  | frxByte (b : Byte)
  /-- `GRX.BYTE b` (R200). -/
  | grxByte (b : Byte)
  /-- `GTX.PUSH b` (R230). -/
  | gtxPush (b : Byte)
  /-- `GTX.ENQW` (R231). -/
  | gtxEnqw
  /-- `GTX.ENQU b` (R232). -/
  | gtxEnqu (b : Byte)
  /-- `GTX.STEP r`, with `rdy` the operand's bit 0 (R234). -/
  | gtxStep (rdy : Bool)
  /-- FET wire byte 0x7E, the frame delimiter (R80). -/
  | fetSentinel
  /-- FET wire byte 0x7D, the escape introducer (R81). -/
  | fetEscape
  /-- Any other FET wire byte (R84). -/
  | fetData (b : Byte)
  /-- RSP wire byte `$`, the start of a wrapped frame (R87). -/
  | rspStart
  /-- RSP wire byte `#`, the end of the payload (R87). -/
  | rspEnd
  /-- RSP wire byte 0x7D, the escape introducer (R89). -/
  | rspEscape
  /-- RSP wire byte `+` (R88). -/
  | rspAck
  /-- RSP wire byte `-` (R88). -/
  | rspNak
  /-- RSP wire byte that is an ASCII hex digit of either case (R90). -/
  | rspHexdigit (b : Byte)
  deriving DecidableEq, Repr

/-- What the environment hands the block, one at a time (R13): a 16-bit stimulus word (R104), or a wire byte that
arrives at the receive port of one link (R14, R271). The opcode table's formats S16, W8-FET and W8-RSP. -/
inductive Stim where
  /-- Format S16: a stimulus word. -/
  | word (w : Half)
  /-- Format W8-FET: a byte received on the FET link. -/
  | fetByte (b : Byte)
  /-- Format W8-RSP: a byte received on the RSP link. -/
  | rspByte (b : Byte)
  deriving DecidableEq, Repr

end Sys2Proof
end

