-- ==== Sys2Proof/Machine/State.lean ====
section
/-! DEFINITION. The state of the block (10_state.md R20 to R51), the reasons a step can stop, and the state after reset
(R50). Each of the six units has a record of its own, since no state is shared between units (R70, R316). -/

namespace Sys2Proof.Machine

/-- A frame of the FET queue: "an ordered byte sequence (payload) with a length field" (R61). The length field is the
payload's length, `Frame.len`, stored once. -/
structure Frame where
  /-- The payload, before escaping and without checksum or delimiters. -/
  payload : List Byte
  deriving DecidableEq, Repr

/-- `len` of a FET frame (R61). -/
abbrev Frame.len (f : Frame) : Nat := f.payload.length

/-- A frame of the RSP queue, tagged `wrapped` (R30, R231, R232). -/
structure TaggedFrame where
  /-- Whether the frame gets the `$...#cc` envelope or is one bare byte. -/
  wrapped : Bool
  /-- The payload, before escaping and without checksum or delimiters. -/
  payload : List Byte
  deriving DecidableEq, Repr

/-- `len` of an RSP frame (R30, R61). -/
abbrev TaggedFrame.len (f : TaggedFrame) : Nat := f.payload.length

/-- State of the FET frame encoder (R24). -/
structure Ftx where
  /-- `ftx_stage`: the payload being handed in, not yet queued. -/
  stage : List Byte
  /-- `ftx_q`: the outbound queue, oldest frame first. -/
  q : List Frame
  /-- `ftx_pos`: 0 .. len+3 of the head frame. -/
  pos : Nat
  /-- `ftx_esc`: 0x7D has been emitted for the byte at `pos`, which is still held. -/
  esc : Bool
  /-- `ftx_ck`: cached `crc16` of the head frame's payload. What it holds while `ckv` is false, 93 U3 leaves open (log
  entries 8 and 17). -/
  ck : Half
  /-- `ftx_ckv`: `ck` is valid for the head frame. -/
  ckv : Bool
  deriving DecidableEq, Repr

/-- `frx_state` (R26). -/
inductive FrxMode where
  /-- No opening sentinel seen since reset, the last failed frame or the last overflow. -/
  | hunt
  /-- A sentinel has been seen and bytes are being assembled. -/
  | assemble
  deriving DecidableEq, Repr

/-- State of the FET frame decoder (R26). The buffer is a list whose length is `frx_cnt`, as R51 allows: the bytes of
`frx_buf` at or past the count are unspecified and never read. -/
structure Frx where
  /-- `frx_state`. -/
  mode : FrxMode
  /-- `frx_buf[0..frx_cnt)`: the assembled bytes, payload then checksum. -/
  buf : List Byte
  /-- `frx_esc`: the last byte was 0x7D and was not stored. -/
  esc : Bool
  deriving DecidableEq, Repr

/-- `frx_cnt` (R26, R51). -/
abbrev Frx.cnt (u : Frx) : Nat := u.buf.length

/-- `grx_state` (R28). -/
inductive GrxMode where
  /-- FPX `Idle`. -/
  | idle
  /-- FPX `InPayload`. -/
  | payload
  /-- FPX `InChecksum`. -/
  | cksum
  deriving DecidableEq, Repr

/-- State of the RSP receiver (R28). The buffer is a list whose length is `grx_cnt` (R51). -/
structure Grx where
  /-- `grx_state`. -/
  mode : GrxMode
  /-- `grx_buf[0..grx_cnt)`: the unescaped payload of the frame in progress. -/
  buf : List Byte
  /-- `grx_esc`: the next data byte is escaped. -/
  esc : Bool
  /-- `grx_sum`: the checksum accumulator. -/
  sum : Byte
  /-- `grx_rck`: the received checksum being accumulated. -/
  rck : Byte
  /-- `grx_digit`: false, the next hex digit is the high nibble; true, it is the low nibble. -/
  digit : Bool
  deriving DecidableEq, Repr

/-- `grx_cnt` (R28, R51). -/
abbrev Grx.cnt (u : Grx) : Nat := u.buf.length

/-- `gtx_state` (R30). -/
inductive GtxMode where
  /-- FPX `Idle`. -/
  | idle
  /-- FPX `Data`. -/
  | data
  /-- FPX `ChecksumBoundary`. -/
  | ckb
  /-- FPX `Checksum`. -/
  | ck
  deriving DecidableEq, Repr

/-- State of the RSP transmitter (R30). -/
structure Gtx where
  /-- `gtx_stage`: the payload being handed in, not yet queued. -/
  stage : List Byte
  /-- `gtx_q`: the transmit queue, oldest frame first. -/
  q : List TaggedFrame
  /-- `gtx_state`. -/
  mode : GtxMode
  /-- `gtx_idx`: index of the next payload byte to emit. -/
  idx : Nat
  /-- `gtx_esc`: the escape introducer has been emitted for `payload[idx]`, which is still held. -/
  esc : Bool
  /-- `gtx_ck`: cached `sum8` of the head frame's payload. What it holds outside `CK`, 93 U3 leaves open (log entries 8
  and 17). -/
  ck : Byte
  /-- `gtx_digit`: false, the next checksum digit is the high nibble's; true, the low nibble's. -/
  digit : Bool
  deriving DecidableEq, Repr

/-- The names of the 14 statistics counters, in the order of R41's index. -/
inductive Counter where
  | fetRxFrames | fetRxBytes | fetTxFrames | fetTxBytes | fetDiscFrames | fetDiscBytes
  | rspRxFrames | rspRxBytes | rspTxFrames | rspTxBytes | rspDiscFrames | rspDiscBytes
  | rspAcks | rspNaks
  deriving DecidableEq, Repr

/-- The statistics counters (R41), unbounded natural numbers (R46). -/
structure Stats where
  /-- Index 0, payloads delivered by `FRX`. -/
  fetRxFrames : Nat
  /-- Index 1, payload bytes of those deliveries. -/
  fetRxBytes : Nat
  /-- Index 2, frames retired by `FTX`. -/
  fetTxFrames : Nat
  /-- Index 3, payload bytes of those frames. -/
  fetTxBytes : Nat
  /-- Index 4, discard events of `FRX`. -/
  fetDiscFrames : Nat
  /-- Index 5, assembled bytes dropped by those events. -/
  fetDiscBytes : Nat
  /-- Index 6, payloads delivered by `GRX`. -/
  rspRxFrames : Nat
  /-- Index 7, payload bytes of those deliveries. -/
  rspRxBytes : Nat
  /-- Index 8, frames retired by `GTX`, unwrapped ones included. -/
  rspTxFrames : Nat
  /-- Index 9, payload bytes of those frames. -/
  rspTxBytes : Nat
  /-- Index 10, discard events of `GRX`. -/
  rspDiscFrames : Nat
  /-- Index 11, payload bytes dropped by those events. -/
  rspDiscBytes : Nat
  /-- Index 12, ACK bytes seen by `GRX` in `IDLE`. -/
  rspAcks : Nat
  /-- Index 13, NAK bytes seen by `GRX` in `IDLE`. -/
  rspNaks : Nat
  deriving DecidableEq, Repr

/-- The seven errors of R291, in the order of their codes. -/
inductive Err where
  /-- Code 1: a closing sentinel whose CRC test fails (R178). -/
  | fetCksum
  /-- Code 2: a byte to store in a full `FRX` buffer (R183). -/
  | fetOverflow
  /-- Code 3: a closing sentinel after one assembled byte (R175). -/
  | fetShort
  /-- Code 4: a sentinel while an escape is pending (R173). -/
  | fetAbort
  /-- Code 5: a second checksum digit that makes a wrong checksum (R213). -/
  | rspCksum
  /-- Code 6: a byte to store in a full `GRX` buffer (R210). -/
  | rspOverflow
  /-- Code 7: a byte that is no hex digit in the checksum field (R214). -/
  | rspNonhex
  deriving DecidableEq, Repr

/-- The two receive units, which alone deliver payloads (R306). -/
inductive Receiver where
  | frx | grx
  deriving DecidableEq, Repr

/-- The one-shot notifications of R305, the complete list. -/
inductive Event where
  /-- `DELIVER` on the unit's event output, with the payload by value (R306). -/
  | deliver (u : Receiver) (payload : List Byte)
  /-- `ACK` (R204). -/
  | ack
  /-- `NAK` (R205). -/
  | nak
  /-- `ERR(code, n)` (R300). -/
  | err (e : Err) (n : Nat)
  /-- `FTX_RETIRED` (R159). -/
  | ftxRetired
  /-- `GTX_RETIRED` (R235, R243). -/
  | gtxRetired
  deriving DecidableEq, Repr

/-- The result an operation reports to the host (the column of R105). -/
inductive Result where
  /-- The operation reports no result. -/
  | nothing
  /-- `CRC.FIN`: a 16-bit checksum. -/
  | crc (v : Half)
  /-- `SUM.FIN`: an 8-bit checksum. -/
  | sum (v : Byte)
  /-- `STAT.READ`: a counter's value. -/
  | count (n : Nat)
  /-- `ok` of a push or an enqueue. -/
  | ok
  /-- `full` of a push or an enqueue. -/
  | full
  /-- A transmit step's wire byte. -/
  | wire (b : Byte)
  /-- A transmit step's `none`: no byte was emitted. -/
  | noByte
  deriving DecidableEq, Repr

/-- What one step shows the environment (R105, R305). The spec makes it the step's return value, not state of the
block; the model keeps it in the state the step answers (log entry 4), and no operation reads it. -/
structure Report where
  /-- The operation's result. -/
  result : Result
  /-- The event the step raised: at most one (R308). -/
  event : Option Event
  deriving DecidableEq, Repr

/-- The report of a step that has shown nothing yet. -/
def Report.empty : Report := { result := .nothing, event := none }

/-- The state of the block, with three fields of the model's own: the parameters the block was built with (log entry 1),
the stimuli the environment has lined up (log entry 5), and the last step's report (log entry 4). -/
structure State where
  /-- The OPEN parameters of R7; no operation changes them. -/
  params : Params
  /-- `crc_reg` (R21). -/
  crcReg : Half
  /-- `sum_reg` (R22). -/
  sumReg : Byte
  /-- `FTX` (R24). -/
  ftx : Ftx
  /-- `FRX` (R26). -/
  frx : Frx
  /-- `GRX` (R28). -/
  grx : Grx
  /-- `GTX` (R30). -/
  gtx : Gtx
  /-- The statistics counters (R41). -/
  stats : Stats
  /-- The stimuli still to come, in the order the environment chose (R70). -/
  stim : List Stim
  /-- What the last step reported. -/
  report : Report
  deriving DecidableEq, Repr

/-- Why the machine stops with a fault. The spec has none (93 U14); both stand for a state outside the ranges R24 and
R30 give, which no run reaches (`Safety.lean`). -/
inductive Fault where
  /-- Raised by `FTX.STEP` when `ftx_pos` exceeds len+3 of the head frame, a value R24 excludes. Safe: the spec gives
  such a state no meaning (log entry 7). -/
  | ftxPosition
  /-- Raised by `GTX.STEP` when it would read past the head frame's payload, which R31 and R67 exclude. Safe
  (log entry 7). -/
  | gtxIndex
  deriving DecidableEq, Repr

/-- Why a stimulus is no operation of the block. -/
inductive Refusal where
  /-- Raised by `exec` for an instruction without a meaning. Safe. No instruction is left so. -/
  | notModelled (mnemonic : String)
  /-- Raised by `step` for a stimulus word whose code is reserved (R106, 93 U9). Safe: the spec says to refuse it. -/
  | reservedCode (code : Byte)
  /-- Raised for `STAT.READ` with an index above 13 (R106, R264). Safe: the spec says to refuse it. -/
  | reservedCounter (i : Byte)
  deriving DecidableEq, Repr

/-- `FTX` after reset (R50). R50 leaves `ftx_ck` unspecified; the value 0 is a DESIGN CHOICE (log entry 8). -/
def Ftx.reset : Ftx := { stage := [], q := [], pos := 0, esc := false, ck := 0, ckv := false }

/-- `FRX` after reset and after every error of its own (R50, R300). -/
def Frx.reset : Frx := { mode := .hunt, buf := [], esc := false }

/-- `GRX` after reset: the one form of `IDLE` (R29, R50). -/
def Grx.reset : Grx := { mode := .idle, buf := [], esc := false, sum := 0, rck := 0, digit := false }

/-- `GTX` after reset (R50). R50 leaves `gtx_ck` unspecified; the value 0 is a DESIGN CHOICE (log entry 8). -/
def Gtx.reset : Gtx := { stage := [], q := [], mode := .idle, idx := 0, esc := false, ck := 0, digit := false }

/-- All 14 counters at 0 (R50). -/
def Stats.zero : Stats where
  fetRxFrames := 0
  fetRxBytes := 0
  fetTxFrames := 0
  fetTxBytes := 0
  fetDiscFrames := 0
  fetDiscBytes := 0
  rspRxFrames := 0
  rspRxBytes := 0
  rspTxFrames := 0
  rspTxBytes := 0
  rspDiscFrames := 0
  rspDiscBytes := 0
  rspAcks := 0
  rspNaks := 0

/-- The table of R50, for a block built with parameters `p`, with no stimulus given yet (R320). -/
def State.resetWith (p : Params) : State where
  params := p
  crcReg := 0xFFFF
  sumReg := 0x00
  ftx := Ftx.reset
  frx := Frx.reset
  grx := Grx.reset
  gtx := Gtx.reset
  stats := Stats.zero
  stim := []
  report := Report.empty

/-- The block right after reset (R50), for whatever parameters it was built with. -/
def State.reset : State := State.resetWith Config.params

end Sys2Proof.Machine
end

