-- ==== Sys2Proof/Machine/Operands.lean ====
section
/-! DEFINITION. The operand forms of R105: a wire or payload byte (taken as it stands), the `rdy` bit (`Bits.rdyOf`), and
the counter index of `STAT.READ`; and the byte-indexed buffers of R60 as the operands of `MemRead`. -/

namespace Sys2Proof.Machine

/-- The counter a `STAT.READ` index names; none above 13 (R41, R264). -/
def Counter.ofIndex (i : Byte) : Option Counter :=
  match i.toNat with
  | 0 => some .fetRxFrames
  | 1 => some .fetRxBytes
  | 2 => some .fetTxFrames
  | 3 => some .fetTxBytes
  | 4 => some .fetDiscFrames
  | 5 => some .fetDiscBytes
  | 6 => some .rspRxFrames
  | 7 => some .rspRxBytes
  | 8 => some .rspTxFrames
  | 9 => some .rspTxBytes
  | 10 => some .rspDiscFrames
  | 11 => some .rspDiscBytes
  | 12 => some .rspAcks
  | 13 => some .rspNaks
  | _ => none

/-- The value of a counter. -/
def Stats.get (t : Stats) : Counter → Nat
  | .fetRxFrames => t.fetRxFrames
  | .fetRxBytes => t.fetRxBytes
  | .fetTxFrames => t.fetTxFrames
  | .fetTxBytes => t.fetTxBytes
  | .fetDiscFrames => t.fetDiscFrames
  | .fetDiscBytes => t.fetDiscBytes
  | .rspRxFrames => t.rspRxFrames
  | .rspRxBytes => t.rspRxBytes
  | .rspTxFrames => t.rspTxFrames
  | .rspTxBytes => t.rspTxBytes
  | .rspDiscFrames => t.rspDiscFrames
  | .rspDiscBytes => t.rspDiscBytes
  | .rspAcks => t.rspAcks
  | .rspNaks => t.rspNaks

/-- What a counter of a realisation with `STAT_WIDTH` = `w` bits shows when the unbounded counter stands at `n`: it
saturates at 2^w - 1 and does not wrap (R46). -/
def statView (w n : Nat) : Nat := min n (2 ^ w - 1)

/-- The numeric code of an error (R291). -/
def Err.code : Err → Nat
  | .fetCksum => 1
  | .fetOverflow => 2
  | .fetShort => 3
  | .fetAbort => 4
  | .rspCksum => 5
  | .rspOverflow => 6
  | .rspNonhex => 7

/-- The storage spaces of R60; a queue has one for each frame it holds, the head frame's at index 0. -/
inductive Buf where
  | ftxStage
  | ftxQ (k : Nat)
  | frxBuf
  | grxBuf
  | gtxStage
  | gtxQ (k : Nat)
  deriving DecidableEq, Repr

/-- The valid bytes of a buffer. -/
def State.bytes (s : State) : Buf → List Byte
  | .ftxStage => s.ftx.stage
  | .ftxQ k => ((s.ftx.q[k]?).map Frame.payload).getD []
  | .frxBuf => s.frx.buf
  | .grxBuf => s.grx.buf
  | .gtxStage => s.gtx.stage
  | .gtxQ k => ((s.gtx.q[k]?).map TaggedFrame.payload).getD []

/-- `MemRead(buf + i, 1)` (R12, R60): the byte at index `i`, or none at or past the buffer's count, where no rule
reads (R67). -/
def State.memRead (s : State) (buf : Buf) (i : Nat) : Option Byte := (s.bytes buf)[i]?

/-- The bits of its stimulus word an operation reads: code and operand byte, code and `rdy` bit, or the code alone
(R104, R105). A wire-byte row has no stimulus word, so no bit of one. -/
def operandMask : Instr → Half
  | .sysReset => 0xFF00
  | .fetTeardown => 0xFF00
  | .rspTeardown => 0xFF00
  | .statRead _ => 0xFFFF
  | .crcInit => 0xFF00
  | .crcUpd _ => 0xFFFF
  | .crcFin => 0xFF00
  | .sumInit => 0xFF00
  | .sumUpd _ => 0xFFFF
  | .sumFin => 0xFF00
  | .ftxPush _ => 0xFFFF
  | .ftxEnq => 0xFF00
  | .ftxStep _ => 0xFF01
  | .frxByte _ => 0xFFFF
  | .grxByte _ => 0xFFFF
  | .gtxPush _ => 0xFFFF
  | .gtxEnqw => 0xFF00
  | .gtxEnqu _ => 0xFFFF
  | .gtxStep _ => 0xFF01
  | .fetSentinel => 0
  | .fetEscape => 0
  | .fetData _ => 0
  | .rspStart => 0
  | .rspEnd => 0
  | .rspEscape => 0
  | .rspAck => 0
  | .rspNak => 0
  | .rspHexdigit _ => 0

/-- The wire byte a FET receive operation takes: the operand of `FRX.BYTE`, or the byte a W8-FET row names. -/
def fetWireByte : Instr → Option Byte
  | .frxByte b => some b
  | .fetSentinel => some Config.fetSentinel
  | .fetEscape => some Config.fetEscape
  | .fetData b => some b
  | _ => none

/-- The wire byte an RSP receive operation takes: the operand of `GRX.BYTE`, or the byte a W8-RSP row names. -/
def rspWireByte : Instr → Option Byte
  | .grxByte b => some b
  | .rspStart => some Config.rspStart
  | .rspEnd => some Config.rspEnd
  | .rspEscape => some Config.rspEscape
  | .rspAck => some Config.rspAck
  | .rspNak => some Config.rspNak
  | .rspHexdigit b => some b
  | _ => none

end Sys2Proof.Machine
end

