-- ==== Sys2Proof/Machine/Ops.lean ====
section
/-! DEFINITION. The named operations the meanings share: reporting (R12, R105, R305), counting (R41), delivery (R306),
error entry (R300), and the whole-unit resets of R260 to R262. There is no return from an error entry: recovery is by
input alone (R310). -/

namespace Sys2Proof.Machine

/-- The answer of a meaning or a step. -/
abbrev Answer := Host.Outcome State Fault Refusal

/-- The state at the start of a step: nothing reported yet. -/
def State.quiet (s : State) : State := { s with report := Report.empty }

/-- Report a result to the host (R105). -/
def State.answer (s : State) (r : Result) : State := { s with report := { s.report with result := r } }

/-- `emit(b)`: hand wire byte `b` to the transport (R12). -/
def State.emit (s : State) (b : Byte) : State := s.answer (.wire b)

/-- `event(E)`: a one-shot notification; it changes no state of the block (R305). -/
def State.notify (s : State) (e : Event) : State := { s with report := { s.report with event := some e } }

/-- Add `k` to one counter (R41, R46, R47). -/
def Stats.bump (t : Stats) (k : Nat) : Counter → Stats
  | .fetRxFrames => { t with fetRxFrames := t.fetRxFrames + k }
  | .fetRxBytes => { t with fetRxBytes := t.fetRxBytes + k }
  | .fetTxFrames => { t with fetTxFrames := t.fetTxFrames + k }
  | .fetTxBytes => { t with fetTxBytes := t.fetTxBytes + k }
  | .fetDiscFrames => { t with fetDiscFrames := t.fetDiscFrames + k }
  | .fetDiscBytes => { t with fetDiscBytes := t.fetDiscBytes + k }
  | .rspRxFrames => { t with rspRxFrames := t.rspRxFrames + k }
  | .rspRxBytes => { t with rspRxBytes := t.rspRxBytes + k }
  | .rspTxFrames => { t with rspTxFrames := t.rspTxFrames + k }
  | .rspTxBytes => { t with rspTxBytes := t.rspTxBytes + k }
  | .rspDiscFrames => { t with rspDiscFrames := t.rspDiscFrames + k }
  | .rspDiscBytes => { t with rspDiscBytes := t.rspDiscBytes + k }
  | .rspAcks => { t with rspAcks := t.rspAcks + k }
  | .rspNaks => { t with rspNaks := t.rspNaks + k }

/-- `c <- c + k` on the counter `c`. -/
def State.count (s : State) (c : Counter) (k : Nat) : State := { s with stats := s.stats.bump k c }

/-- Count one frame on counter `f` and its bytes on counter `b`: every frame-level event moves such a pair (R42). -/
def State.countFrame (s : State) (f b : Counter) (bytes : Nat) : State := (s.count f 1).count b bytes

/-- `deliver(U, P)`: the payload goes out by value in the step's event (R306). -/
def State.deliver (s : State) (u : Receiver) (p : List Byte) : State := s.notify (.deliver u p)

/-- The link an error belongs to: codes 1 to 4 the FET link, 5 to 7 the RSP link (R291, R300). -/
def Err.unit : Err → Receiver
  | .fetCksum => .frx
  | .fetOverflow => .frx
  | .fetShort => .frx
  | .fetAbort => .frx
  | .rspCksum => .grx
  | .rspOverflow => .grx
  | .rspNonhex => .grx

/-- `raise E(n)`: error entry (R300). The discard counters move, the receiver's working registers take their reset
values, and the `ERR` event carries code and count; nothing else is touched and nothing is saved. -/
def State.raise (s : State) (e : Err) (n : Nat) : State :=
  match e.unit with
  | .frx => ({ s.countFrame .fetDiscFrames .fetDiscBytes n with frx := Frx.reset }).notify (.err e n)
  | .grx => ({ s.countFrame .rspDiscFrames .rspDiscBytes n with grx := Grx.reset }).notify (.err e n)

/-- What `FET.TEARDOWN` does (R261). It leaves `ftx_ck`, which R261 does not name. -/
def State.teardownFet (s : State) : State :=
  { s with
    ftx := { Ftx.reset with ck := s.ftx.ck }
    frx := Frx.reset
    stats := { s.stats with
      fetRxFrames := 0, fetRxBytes := 0, fetTxFrames := 0, fetTxBytes := 0, fetDiscFrames := 0, fetDiscBytes := 0 } }

/-- What `RSP.TEARDOWN` does (R262). It leaves `gtx_ck`, which R262 does not name. -/
def State.teardownRsp (s : State) : State :=
  { s with
    gtx := { Gtx.reset with ck := s.gtx.ck }
    grx := Grx.reset
    stats := { s.stats with
      rspRxFrames := 0, rspRxBytes := 0, rspTxFrames := 0, rspTxBytes := 0, rspDiscFrames := 0, rspDiscBytes := 0,
      rspAcks := 0, rspNaks := 0 } }

/-- What `SYS.RESET` does: every piece of state takes its value of R50 (R260). The parameters are no state of the
block (R49, R325) and the stimuli still to come are the environment's; both stay. -/
def State.sysReset (s : State) : State := { State.resetWith s.params with stim := s.stim }

end Sys2Proof.Machine
end

