-- ==== Sys2Proof/Machine/Crc.lean ====
section
/-! DEFINITION. The operations of unit `CRC` (40_checksum_crc16.md). -/

namespace Sys2Proof.Machine

/-- `CRC.INIT` (R124). -/
def execCrcInit (s : State) : Answer := .next { s.quiet with crcReg := Config.crcInit }

/-- `CRC.UPD b` (R125). -/
def execCrcUpd (b : Byte) (s : State) : Answer := .next { s.quiet with crcReg := crcStep s.crcReg b }

/-- `CRC.FIN` (R126): the register is not changed. -/
def execCrcFin (s : State) : Answer := .next (s.quiet.answer (.crc (crcOut s.crcReg)))

end Sys2Proof.Machine
end

