-- ==== Sys2Proof/Machine/Ftx.lean ====
section
/-! DEFINITION. The operations of unit `FTX` (42_fet_encoder.md). -/

namespace Sys2Proof.Machine

/-- `FTX.PUSH b` (R150). -/
def execFtxPush (b : Byte) (s : State) : Answer :=
  .next (if s.params.maxTxPayload = some s.ftx.stage.length then s.quiet.answer .full
    else ({ s.quiet with ftx := { s.ftx with stage := s.ftx.stage ++ [b] } }).answer .ok)

/-- `FTX.ENQ` (R160): the staged payload becomes the last frame of the queue; nothing of a transmission in progress is
touched (R71). -/
def execFtxEnq (s : State) : Answer :=
  .next (if s.params.fetTxqDepth = some s.ftx.q.length then s.quiet.answer .full
    else ({ s.quiet with ftx := { s.ftx with q := s.ftx.q ++ [Frame.mk s.ftx.stage], stage := [] } }).answer .ok)

/-- The checksum cache at the start of an accepted step on head frame `f` (R152). -/
def ftxCache (f : Frame) (s : State) : State :=
  if s.ftx.ckv then s else { s with ftx := { s.ftx with ck := crc16 f.payload, ckv := true } }

/-- `ftx_byte(p)` (R153) for a frame with payload `payload` and cached checksum `ck`: positions 0 and len+3 have none. -/
def ftxByte (payload : List Byte) (ck : Half) (p : Nat) : Option Byte :=
  if p = 0 then none
  else if p ≤ payload.length then payload[p - 1]?
  else if p = payload.length + 1 then some (lo8 ck)
  else if p = payload.length + 2 then some (hi8 ck)
  else none

/-- Case `SOF` (R154). -/
def ftxSof (s : State) : State := { s.emit Config.fetSentinel with ftx := { s.ftx with pos := 1 } }

/-- Case `ESC1` (R155): the real byte is held at the same position. -/
def ftxEsc1 (s : State) : State := { s.emit Config.fetEscape with ftx := { s.ftx with esc := true } }

/-- Case `ESC2` (R156). -/
def ftxEsc2 (b : Byte) (s : State) : State :=
  { s.emit (b ^^^ Config.escXor) with ftx := { s.ftx with esc := false, pos := s.ftx.pos + 1 } }

/-- Cases `DATA` (R157), `CKLO` and `CKHI` (R158): the byte passes unchanged. -/
def ftxPlain (b : Byte) (s : State) : State := { s.emit b with ftx := { s.ftx with pos := s.ftx.pos + 1 } }

/-- Case `EOF` (R159): the frame `f` is retired, `rest` is left queued. `ftx_ck` keeps the retired frame's checksum, where
R48 and 93 U3 allow any value. DESIGN CHOICE, log entry 17. -/
def ftxEof (f : Frame) (rest : List Frame) (s : State) : State :=
  (({ s.emit Config.fetSentinel with ftx := { s.ftx with q := rest, pos := 0, esc := false, ckv := false } }).countFrame
    .fetTxFrames .fetTxBytes f.len).notify .ftxRetired

/-- An accepted step on head frame `f`, after the checksum cache: the dispatch on `ftx_pos` (R151). A position past
len+3, which R24 excludes, is a fault (log entry 7). -/
def ftxAccepted (f : Frame) (rest : List Frame) (s : State) : Answer :=
  if s.ftx.pos = 0 then .next (ftxSof s)
  else if s.ftx.pos = f.len + 3 then .next (ftxEof f rest s)
  else match ftxByte f.payload s.ftx.ck s.ftx.pos with
    | some b =>
      .next (if s.ftx.esc then ftxEsc2 b s else if fetReserved b then ftxEsc1 s else ftxPlain b s)
    | none => .fault .ftxPosition

/-- `FTX.STEP r` (R151): with the queue empty or `rdy` = 0, nothing changes and no byte is emitted. -/
def execFtxStep (rdy : Bool) (s : State) : Answer :=
  match s.ftx.q with
  | [] => .next (s.quiet.answer .noByte)
  | f :: rest => if rdy then ftxAccepted f rest (ftxCache f s.quiet) else .next (s.quiet.answer .noByte)

end Sys2Proof.Machine
end

