-- ==== Sys2Proof/Machine/Gtx.lean ====
section
/-! DEFINITION. The operations of unit `GTX` (45_rsp_transmitter.md). -/

namespace Sys2Proof.Machine

/-- `GTX.PUSH b` (R230). -/
def execGtxPush (b : Byte) (s : State) : Answer :=
  .next (if s.params.maxTxPayload = some s.gtx.stage.length then s.quiet.answer .full
    else ({ s.quiet with gtx := { s.gtx with stage := s.gtx.stage ++ [b] } }).answer .ok)

/-- `GTX.ENQW` (R231): the staged payload becomes the last frame of the queue, wrapped. -/
def execGtxEnqw (s : State) : Answer :=
  .next (if s.params.rspTxqDepth = some s.gtx.q.length then s.quiet.answer .full
    else ({ s.quiet with gtx :=
      { s.gtx with q := s.gtx.q ++ [TaggedFrame.mk true s.gtx.stage], stage := [] } }).answer .ok)

/-- `GTX.ENQU b` (R232): the one byte becomes the last frame of the queue, unwrapped; the staging buffer stays. -/
def execGtxEnqu (b : Byte) (s : State) : Answer :=
  .next (if s.params.rspTxqDepth = some s.gtx.q.length then s.quiet.answer .full
    else ({ s.quiet with gtx := { s.gtx with q := s.gtx.q ++ [TaggedFrame.mk false [b]] } }).answer .ok)

/-- `IDLE`, head frame unwrapped, its byte `b` (R235): the frame is retired at once. -/
def gtxBare (b : Byte) (rest : List TaggedFrame) (s : State) : State :=
  (({ s.emit b with gtx := { s.gtx with q := rest } }).countFrame .rspTxFrames .rspTxBytes 1).notify .gtxRetired

/-- `IDLE`, head frame `f` wrapped (R236). -/
def gtxStart (f : TaggedFrame) (s : State) : State :=
  { s.emit Config.rspStart with gtx :=
    { s.gtx with idx := 0, esc := false, mode := if f.len = 0 then .ckb else .data } }

/-- `DATA` after the byte at `gtx_idx` has gone out: the index advances, and the last byte ends the payload
(R237, R239). -/
def gtxAdvance (f : TaggedFrame) (u : Gtx) : Gtx :=
  { u with idx := u.idx + 1, mode := if u.idx + 1 = f.len then .ckb else u.mode }

/-- `DATA`, the byte `b` at `gtx_idx`: `ESC2` (R239), `ESC1` (R238) or plain (R237). -/
def gtxData (f : TaggedFrame) (b : Byte) (s : State) : State :=
  if s.gtx.esc then
    { s.emit (b ^^^ Config.escXor) with gtx := gtxAdvance f { s.gtx with esc := false } }
  else if rspReserved b then { s.emit Config.rspEscape with gtx := { s.gtx with esc := true } }
  else { s.emit b with gtx := gtxAdvance f s.gtx }

/-- `CKB` (R241): end of payload; the sum of the unescaped payload is cached. -/
def gtxBoundary (f : TaggedFrame) (s : State) : State :=
  { s.emit Config.rspEnd with gtx := { s.gtx with ck := sum8 f.payload, digit := false, mode := .ck } }

/-- `CK`, first digit (R242). -/
def gtxHigh (s : State) : State := { s.emit (hexHigh s.gtx.ck) with gtx := { s.gtx with digit := true } }

/-- `CK`, second digit (R243): the frame `f` is retired, `rest` is left queued. `gtx_ck` keeps the retired frame's sum,
where R48 and 93 U3 allow any value. DESIGN CHOICE, log entry 17. -/
def gtxLow (f : TaggedFrame) (rest : List TaggedFrame) (s : State) : State :=
  (({ s.emit (hexLow s.gtx.ck) with gtx :=
    { s.gtx with q := rest, digit := false, idx := 0, mode := .idle } }).countFrame .rspTxFrames .rspTxBytes
      f.len).notify .gtxRetired

/-- An accepted step on head frame `f`: the dispatch on `gtx_state` (R234). In `IDLE` and `DATA` `gtx_ck` stays as it is,
where 93 U3 allows any value (DESIGN CHOICE, log entry 17). A read past the payload, which R31 and R67
exclude, is a fault (log entry 7). -/
def gtxAccepted (f : TaggedFrame) (rest : List TaggedFrame) (s : State) : Answer :=
  match s.gtx.mode with
  | .idle =>
    if f.wrapped then .next (gtxStart f s)
    else match s.memRead (.gtxQ 0) 0 with
      | some b => .next (gtxBare b rest s)
      | none => .fault .gtxIndex
  | .data =>
    match s.memRead (.gtxQ 0) s.gtx.idx with
    | some b => .next (gtxData f b s)
    | none => .fault .gtxIndex
  | .ckb => .next (gtxBoundary f s)
  | .ck => .next (if s.gtx.digit then gtxLow f rest s else gtxHigh s)

/-- `GTX.STEP r` (R234): with the queue empty or `rdy` = 0, nothing changes and no byte is emitted. -/
def execGtxStep (rdy : Bool) (s : State) : Answer :=
  match s.gtx.q with
  | [] => .next (s.quiet.answer .noByte)
  | f :: rest => if rdy then gtxAccepted f rest s.quiet else .next (s.quiet.answer .noByte)

end Sys2Proof.Machine
end

