-- ==== Sys2Proof/Machine/Sum.lean ====
section
/-! DEFINITION. The operations of unit `SUM` (41_checksum_sum8.md). -/

namespace Sys2Proof.Machine

/-- `SUM.INIT` (R141). -/
def execSumInit (s : State) : Answer := .next { s.quiet with sumReg := 0 }

/-- `SUM.UPD b` (R142). -/
def execSumUpd (b : Byte) (s : State) : Answer := .next { s.quiet with sumReg := sumStep s.sumReg b }

/-- `SUM.FIN` (R143): the register is not changed. -/
def execSumFin (s : State) : Answer := .next (s.quiet.answer (.sum s.sumReg))

end Sys2Proof.Machine
end

