-- ==== Sys2Proof/Machine/System.lean ====
section
/-! DEFINITION. The system operations (46_system_ops.md). -/

namespace Sys2Proof.Machine

/-- `SYS.RESET` (R260). -/
def execSysReset (s : State) : Answer := .next s.sysReset

/-- `FET.TEARDOWN` (R261). -/
def execFetTeardown (s : State) : Answer := .next s.quiet.teardownFet

/-- `RSP.TEARDOWN` (R262). -/
def execRspTeardown (s : State) : Answer := .next s.quiet.teardownRsp

/-- `STAT.READ i` (R264): the counter's value, no state change; an index above 13 is refused. -/
def execStatRead (i : Byte) (s : State) : Answer :=
  match Counter.ofIndex i with
  | some c => .next (s.quiet.answer (.count (s.stats.get c)))
  | none => .refused (.reservedCounter i)

end Sys2Proof.Machine
end

