-- ==== Sys2Proof/Machine/Frx.lean ====
section
/-! DEFINITION. The FET receive step (43_fet_decoder.md), and the operation `FRX.BYTE`. -/

namespace Sys2Proof.Machine

/-- `store(v)` (R183): append with capacity test. -/
def frxStore (v : Byte) (s : State) : State :=
  if s.frx.cnt = s.params.fetRxCap then s.raise .fetOverflow s.frx.cnt
  else { s with frx := { s.frx with buf := s.frx.buf ++ [v] } }

/-- `P` of R176: every assembled byte but the last two. -/
def frxPayload (buf : List Byte) : List Byte := buf.take (buf.length - 2)

/-- `rck` of R176: the last two assembled bytes, low then high. Used on buffers of two bytes or more only, where both
reads are below the count. -/
def frxRck (buf : List Byte) : Half := half (buf.getD (buf.length - 2) 0) (buf.getD (buf.length - 1) 0)

/-- End of frame: validate (R176), then deliver (R177) or discard (R178). -/
def frxValidate (s : State) : State :=
  if crc16 (frxPayload s.frx.buf) = frxRck s.frx.buf then
    ({ s.countFrame .fetRxFrames .fetRxBytes (s.frx.cnt - 2) with frx := { s.frx with buf := [] } }).deliver .frx
      (frxPayload s.frx.buf)
  else s.raise .fetCksum s.frx.cnt

/-- A sentinel in `ASSEMBLE`: abort (R173), empty (R174), short (R175) or end of frame (R176), in this order. -/
def frxClose (s : State) : State :=
  if s.frx.esc then s.raise .fetAbort s.frx.cnt
  else if s.frx.cnt = 0 then s
  else if s.frx.cnt = 1 then s.raise .fetShort 1
  else frxValidate s

/-- One received FET wire byte: the dispatch of R170, tests in exactly its order. -/
def frxReceive (b : Byte) (s : State) : State :=
  match s.frx.mode with
  | .hunt => if b = Config.fetSentinel then { s with frx := { mode := .assemble, buf := [], esc := false } } else s
  | .assemble =>
    if b = Config.fetSentinel then frxClose s
    else if s.frx.esc then frxStore (b ^^^ Config.escXor) { s with frx := { s.frx with esc := false } }
    else if b = Config.fetEscape then { s with frx := { s.frx with esc := true } }
    else frxStore b s

/-- `FRX.BYTE b` (R170). -/
def execFrxByte (b : Byte) (s : State) : Answer := .next (frxReceive b s.quiet)

end Sys2Proof.Machine
end

