-- ==== Sys2Proof/Machine/Grx.lean ====
section
/-! DEFINITION. The RSP receive step (44_rsp_receiver.md), and the operation `GRX.BYTE`. -/

namespace Sys2Proof.Machine

/-- A byte in `IDLE`: start of frame (R203), ACK (R204), NAK (R205) or stray (R202). -/
def grxIdle (b : Byte) (s : State) : State :=
  if b = Config.rspStart then { s with grx := { s.grx with mode := .payload, buf := [], sum := 0, esc := false } }
  else if b = Config.rspAck then (s.count .rspAcks 1).notify .ack
  else if b = Config.rspNak then (s.count .rspNaks 1).notify .nak
  else s

/-- Append one unescaped byte, with the capacity test (R209, R210). -/
def grxStore (v : Byte) (s : State) : State :=
  if s.grx.cnt = s.params.rspRxCap then s.raise .rspOverflow s.grx.cnt
  else { s with grx := { s.grx with buf := s.grx.buf ++ [v], sum := sumStep s.grx.sum v } }

/-- A data byte in `PAYLOAD`: unescape if an escape is pending, then store (R209). -/
def grxData (b : Byte) (s : State) : State :=
  if s.grx.esc then grxStore (b ^^^ Config.escXor) { s with grx := { s.grx with esc := false } } else grxStore b s

/-- A byte in `PAYLOAD`: end (R207), escape introducer (R208) or data (R209); the first two are tested before
`grx_esc` (R200). -/
def grxPayload (b : Byte) (s : State) : State :=
  if b = Config.rspEnd then { s with grx := { s.grx with mode := .cksum, esc := false, rck := 0, digit := false } }
  else if b = Config.rspEscape then { s with grx := { s.grx with esc := true } }
  else grxData b s

/-- The second checksum digit, of value `v`: deliver (R212) or discard (R213). Every return to `IDLE` leaves the one form
of it, the reset state (R212). -/
def grxVerdict (v : Byte) (s : State) : State :=
  if s.grx.sum = s.grx.rck ||| v then
    ({ s.countFrame .rspRxFrames .rspRxBytes s.grx.cnt with grx := Grx.reset }).deliver .grx
      s.grx.buf
  else s.raise .rspCksum s.grx.cnt

/-- A byte in `CKSUM`: no hex digit (R214), first digit (R211) or second digit (R212, R213). -/
def grxCksum (b : Byte) (s : State) : State :=
  match hexval b with
  | none => s.raise .rspNonhex s.grx.cnt
  | some v => if s.grx.digit then grxVerdict v s else { s with grx := { s.grx with rck := v <<< 4, digit := true } }

/-- One received RSP wire byte: the dispatch of R200. -/
def grxReceive (b : Byte) (s : State) : State :=
  match s.grx.mode with
  | .idle => grxIdle b s
  | .payload => grxPayload b s
  | .cksum => grxCksum b s

/-- `GRX.BYTE b` (R200). -/
def execGrxByte (b : Byte) (s : State) : Answer := .next (grxReceive b s.quiet)

end Sys2Proof.Machine
end

