-- ==== Sys2Proof/Machine/Wire.lean ====
section
/-! DEFINITION. The wire-byte rows of the opcode table: each is the reception of that byte on its link, one receive step
on it in whatever state the receiver is (R14, R84, R92; log entry 2). -/

namespace Sys2Proof.Machine

/-- FET wire byte 0x7E (R80, R84). -/
def execFetSentinel (s : State) : Answer := .next (frxReceive Config.fetSentinel s.quiet)

/-- FET wire byte 0x7D (R81, R84). -/
def execFetEscape (s : State) : Answer := .next (frxReceive Config.fetEscape s.quiet)

/-- Any other FET wire byte (R84). -/
def execFetData (b : Byte) (s : State) : Answer := .next (frxReceive b s.quiet)

/-- RSP wire byte `$` (R87, R92). -/
def execRspStart (s : State) : Answer := .next (grxReceive Config.rspStart s.quiet)

/-- RSP wire byte `#` (R87, R92). -/
def execRspEnd (s : State) : Answer := .next (grxReceive Config.rspEnd s.quiet)

/-- RSP wire byte 0x7D (R89, R92). -/
def execRspEscape (s : State) : Answer := .next (grxReceive Config.rspEscape s.quiet)

/-- RSP wire byte `+` (R88, R92). -/
def execRspAck (s : State) : Answer := .next (grxReceive Config.rspAck s.quiet)

/-- RSP wire byte `-` (R88, R92). -/
def execRspNak (s : State) : Answer := .next (grxReceive Config.rspNak s.quiet)

/-- RSP wire byte that is a hex digit (R90, R92). -/
def execRspHexdigit (b : Byte) (s : State) : Answer := .next (grxReceive b s.quiet)

end Sys2Proof.Machine
end

