-- ==== Sys2Proof/Machine/Dispatch.lean ====
section
/-! DEFINITION. The dispatch of an operation to its meaning, one arm for each constructor of `Instr`. -/

namespace Sys2Proof.Machine

def exec (i : Instr) (s : State) : Host.Outcome State Fault Refusal :=
  match i with
  | .sysReset => Sys2Proof.Machine.execSysReset s
  | .fetTeardown => Sys2Proof.Machine.execFetTeardown s
  | .rspTeardown => Sys2Proof.Machine.execRspTeardown s
  | .statRead k => Sys2Proof.Machine.execStatRead k s
  | .crcInit => Sys2Proof.Machine.execCrcInit s
  | .crcUpd b => Sys2Proof.Machine.execCrcUpd b s
  | .crcFin => Sys2Proof.Machine.execCrcFin s
  | .sumInit => Sys2Proof.Machine.execSumInit s
  | .sumUpd b => Sys2Proof.Machine.execSumUpd b s
  | .sumFin => Sys2Proof.Machine.execSumFin s
  | .ftxPush b => Sys2Proof.Machine.execFtxPush b s
  | .ftxEnq => Sys2Proof.Machine.execFtxEnq s
  | .ftxStep rdy => Sys2Proof.Machine.execFtxStep rdy s
  | .frxByte b => Sys2Proof.Machine.execFrxByte b s
  | .grxByte b => Sys2Proof.Machine.execGrxByte b s
  | .gtxPush b => Sys2Proof.Machine.execGtxPush b s
  | .gtxEnqw => Sys2Proof.Machine.execGtxEnqw s
  | .gtxEnqu b => Sys2Proof.Machine.execGtxEnqu b s
  | .gtxStep rdy => Sys2Proof.Machine.execGtxStep rdy s
  | .fetSentinel => Sys2Proof.Machine.execFetSentinel s
  | .fetEscape => Sys2Proof.Machine.execFetEscape s
  | .fetData b => Sys2Proof.Machine.execFetData b s
  | .rspStart => Sys2Proof.Machine.execRspStart s
  | .rspEnd => Sys2Proof.Machine.execRspEnd s
  | .rspEscape => Sys2Proof.Machine.execRspEscape s
  | .rspAck => Sys2Proof.Machine.execRspAck s
  | .rspNak => Sys2Proof.Machine.execRspNak s
  | .rspHexdigit b => Sys2Proof.Machine.execRspHexdigit b s

end Sys2Proof.Machine
end

