-- ==== Sys2Proof/WellFormed.lean ====
section
/-! DEFINITION. Which terms of `Instr` stand for an encoding the spec gives. -/

namespace Sys2Proof

/-- The checks an operation's operand must pass: a counter index is 0 to 13 (R106, R264); FET.DATA is "every value but
0x7E, 0x7D" (R84); RSP.HEXDIGIT is one of the 22 hex digits (R90, R146). Every other operand is any byte or bit. -/
def Instr.wellFormed : Instr → Bool
  | .statRead i => i ≤ 13
  | .fetData b => !Machine.fetReserved b
  | .rspHexdigit b => (Machine.hexval b).isSome
  | .sysReset => true
  | .fetTeardown => true
  | .rspTeardown => true
  | .crcInit => true
  | .crcUpd _ => true
  | .crcFin => true
  | .sumInit => true
  | .sumUpd _ => true
  | .sumFin => true
  | .ftxPush _ => true
  | .ftxEnq => true
  | .ftxStep _ => true
  | .frxByte _ => true
  | .grxByte _ => true
  | .gtxPush _ => true
  | .gtxEnqw => true
  | .gtxEnqu _ => true
  | .gtxStep _ => true
  | .fetSentinel => true
  | .fetEscape => true
  | .rspStart => true
  | .rspEnd => true
  | .rspEscape => true
  | .rspAck => true
  | .rspNak => true

/-- `Instr.wellFormed` as a proposition. -/
abbrev Instr.WellFormed (i : Instr) : Prop := i.wellFormed = true

end Sys2Proof
end

