-- ==== Sys2Proof/Decode.lean ====
section
/-! DEFINITION. The decoder, total on every stimulus word and every wire byte, and after it the encoder (R104 to R106,
R80 to R94). -/

namespace Sys2Proof

/-- Why a stimulus word is not an operation of the block (R106). -/
inductive DecodeError where
  /-- The code byte is none of R105's. -/
  | reservedCode (code : Byte)
  /-- `STAT.READ` with an index above 13. -/
  | reservedCounter (i : Byte)
  deriving DecidableEq, Repr

/-- The operation a stimulus word encodes (R105); a reserved word is refused by name (R106). Where an operation has no
operand the operand byte is ignored, and a transmit step ignores its bits 7:1 (R104, R105). -/
def decodeWord (w : Half) : Except DecodeError Instr :=
  let d := Machine.dataOf w
  match (Machine.codeOf w).toNat with
  | 0x00 => .ok .sysReset
  | 0x01 => .ok .fetTeardown
  | 0x02 => .ok .rspTeardown
  | 0x03 => if d ≤ 13 then .ok (.statRead d) else .error (.reservedCounter d)
  | 0x10 => .ok .crcInit
  | 0x11 => .ok (.crcUpd d)
  | 0x12 => .ok .crcFin
  | 0x20 => .ok .sumInit
  | 0x21 => .ok (.sumUpd d)
  | 0x22 => .ok .sumFin
  | 0x30 => .ok (.ftxPush d)
  | 0x31 => .ok .ftxEnq
  | 0x32 => .ok (.ftxStep (Machine.rdyOf d))
  | 0x40 => .ok (.frxByte d)
  | 0x50 => .ok (.grxByte d)
  | 0x60 => .ok (.gtxPush d)
  | 0x61 => .ok .gtxEnqw
  | 0x62 => .ok (.gtxEnqu d)
  | 0x63 => .ok (.gtxStep (Machine.rdyOf d))
  | _ => .error (.reservedCode (Machine.codeOf w))

/-- The opcode-table row of a byte received on the FET link (R80, R81, R84). -/
def decodeFetByte (b : Byte) : Instr :=
  if b = Config.fetSentinel then .fetSentinel
  else if b = Config.fetEscape then .fetEscape
  else .fetData b

/-- The opcode-table row of a byte received on the RSP link (R87 to R90). A byte the table gives no row is still a legal
wire byte (R201): it is the operation `GRX.BYTE` on that byte. -/
def decodeRspByte (b : Byte) : Instr :=
  if b = Config.rspStart then .rspStart
  else if b = Config.rspEnd then .rspEnd
  else if b = Config.rspEscape then .rspEscape
  else if b = Config.rspAck then .rspAck
  else if b = Config.rspNak then .rspNak
  else if (Machine.hexval b).isSome then .rspHexdigit b
  else .grxByte b

/-- The decoder: the operation each stimulus stands for, or the name of what is reserved. -/
def decode : Stim → Except DecodeError Instr
  | .word w => decodeWord w
  | .fetByte b => .ok (decodeFetByte b)
  | .rspByte b => .ok (decodeRspByte b)

/-- The encoder, from the same tables: an ignored operand byte is written 0x00 (R104). -/
def encode : Instr → Stim
  | .sysReset => .word (Machine.stimulusWord 0x00 0)
  | .fetTeardown => .word (Machine.stimulusWord 0x01 0)
  | .rspTeardown => .word (Machine.stimulusWord 0x02 0)
  | .statRead i => .word (Machine.stimulusWord 0x03 i)
  | .crcInit => .word (Machine.stimulusWord 0x10 0)
  | .crcUpd b => .word (Machine.stimulusWord 0x11 b)
  | .crcFin => .word (Machine.stimulusWord 0x12 0)
  | .sumInit => .word (Machine.stimulusWord 0x20 0)
  | .sumUpd b => .word (Machine.stimulusWord 0x21 b)
  | .sumFin => .word (Machine.stimulusWord 0x22 0)
  | .ftxPush b => .word (Machine.stimulusWord 0x30 b)
  | .ftxEnq => .word (Machine.stimulusWord 0x31 0)
  | .ftxStep r => .word (Machine.stimulusWord 0x32 (Machine.ofRdy r))
  | .frxByte b => .word (Machine.stimulusWord 0x40 b)
  | .grxByte b => .word (Machine.stimulusWord 0x50 b)
  | .gtxPush b => .word (Machine.stimulusWord 0x60 b)
  | .gtxEnqw => .word (Machine.stimulusWord 0x61 0)
  | .gtxEnqu b => .word (Machine.stimulusWord 0x62 b)
  | .gtxStep r => .word (Machine.stimulusWord 0x63 (Machine.ofRdy r))
  | .fetSentinel => .fetByte Config.fetSentinel
  | .fetEscape => .fetByte Config.fetEscape
  | .fetData b => .fetByte b
  | .rspStart => .rspByte Config.rspStart
  | .rspEnd => .rspByte Config.rspEnd
  | .rspEscape => .rspByte Config.rspEscape
  | .rspAck => .rspByte Config.rspAck
  | .rspNak => .rspByte Config.rspNak
  | .rspHexdigit b => .rspByte b

/-- The link a bare table byte is taken to arrive on. The table's W8-FET and W8-RSP rows share byte values, so the
bits alone do not name the link: the bytes R92 and R90 name, but for 0x7D, are read as RSP bytes, all others (0x7D and
0x7E among them) as FET bytes. DESIGN CHOICE, log entry 3; it decides `decodeTableWord` and `withFetchWord` alone. -/
def tableByte (b : Byte) : Stim :=
  if b = Config.rspStart ∨ b = Config.rspEnd ∨ b = Config.rspAck ∨ b = Config.rspNak ∨ (Machine.hexval b).isSome = true
  then .rspByte b
  else .fetByte b

/-- The stimulus an opcode-table word of `nbits` bits stands for: a wire byte where the row has 8 bits, else a stimulus
word. -/
def stimOfTable (nbits w : Nat) : Stim :=
  if nbits ≤ 8 then tableByte (BitVec.ofNat 8 w) else .word (BitVec.ofNat 16 w)

/-- The instruction the decoder reads from an opcode-table word. -/
def decodeTableWord (nbits w : Nat) : Option Instr :=
  if nbits ≤ 16 then (decode (stimOfTable nbits w)).toOption else none

end Sys2Proof
end

