-- ==== Sys2Proof/Machine/Fetch.lean ====
section
/-! DEFINITION. How the machine comes by its next operation: the environment's stimuli, taken one at a time in its order
(R13, R70). -/

namespace Sys2Proof.Machine

/-- The next stimulus, and the state with it taken; none while no operation is given. -/
def fetch (s : State) : Option (Stim × State) :=
  match s.stim with
  | [] => none
  | x :: rest => some (x, { s with stim := rest })

/-- What the block does while no operation is given: nothing (R320), and so it reports nothing. -/
def idle (s : State) : State := s.quiet

/-- The refusal of a reserved stimulus word (R106). -/
def refusalOf : DecodeError → Refusal
  | .reservedCode c => .reservedCode c
  | .reservedCounter i => .reservedCounter i

/-- The state in which the environment gives stimulus `x` next. -/
def State.give (s : State) (x : Stim) : State := { s with stim := x :: s.stim }

end Sys2Proof.Machine
end

