-- ==== Sys2Proof/Machine/Step.lean ====
section
/-! DEFINITION. One step of the machine: one atomic operation of the block (R13). -/

namespace Sys2Proof.Machine

/-- Take the next stimulus and run it. A reserved stimulus word is refused (R106); with no stimulus the block does
nothing (R320). -/
def step (s : State) : Host.Outcome State Fault Refusal :=
  match fetch s with
  | none => .next (idle s)
  | some (x, s') =>
    match decode x with
    | .ok i => exec i s'
    | .error e => .refused (refusalOf e)

/-- `s` with the instruction of an opcode-table word given as the very next stimulus (log entry 5). -/
def State.withFetchWord (s : State) (nbits w : Nat) : State := s.give (stimOfTable nbits w)

end Sys2Proof.Machine
end

