-- ==== Sys2Proof/Machine/Pseudo.lean ====
section
/-! DEFINITION. Sequences of operations and the pseudo-operations of R108. -/

namespace Sys2Proof.Machine

/-- Run operations one after another (R13), and answer the last state with the reports in order; none where one of them
does not answer a next state. -/
def runAll : List Instr → State → Option (State × List Report)
  | [], s => some (s, [])
  | i :: is, s =>
    match exec i s with
    | .next t => (runAll is t).map fun r => (r.1, t.report :: r.2)
    | .fault _ => none
    | .refused _ => none

/-- The wire bytes among a list of reports, in order. -/
def wireBytes (rs : List Report) : List Byte :=
  rs.filterMap fun r => match r.result with
    | .wire b => some b
    | _ => none

/-- The events among a list of reports, in order. -/
def events (rs : List Report) : List Event := rs.filterMap Report.event

/-- `CRC16 P` (R108). -/
def pseudoCrc16 (p : List Byte) : List Instr := .crcInit :: (p.map .crcUpd ++ [.crcFin])

/-- `SUM8 P` (R108). -/
def pseudoSum8 (p : List Byte) : List Instr := .sumInit :: (p.map .sumUpd ++ [.sumFin])

/-- `FTX.SEND P` (R108). -/
def ftxSend (p : List Byte) : List Instr := p.map .ftxPush ++ [.ftxEnq]

/-- `FRX.FEED B` (R108). -/
def frxFeed (bs : List Byte) : List Instr := bs.map .frxByte

/-- `GRX.FEED B` (R108). -/
def grxFeed (bs : List Byte) : List Instr := bs.map .grxByte

/-- `GTX.SENDW P` (R108). -/
def gtxSendw (p : List Byte) : List Instr := p.map .gtxPush ++ [.gtxEnqw]

/-- `GTX.ACK` (R108). -/
def gtxAck : List Instr := [.gtxEnqu Config.rspAck]

/-- Repeat a transmit step until it reports `none` (R108), at most `fuel` times; the bytes emitted, in order. None where
the fuel does not reach the step that reports `none`. -/
def drain (i : Instr) : Nat → State → Option (State × List Byte)
  | 0, _ => none
  | fuel + 1, s =>
    match exec i s with
    | .next t =>
      match t.report.result with
      | .wire b => (drain i fuel t).map fun r => (r.1, b :: r.2)
      | _ => some (t, [])
    | .fault _ => none
    | .refused _ => none

/-- `FTX.DRAIN` (R108). -/
def ftxDrain (fuel : Nat) (s : State) : Option (State × List Byte) := drain (.ftxStep true) fuel s

/-- `GTX.DRAIN` (R108). -/
def gtxDrain (fuel : Nat) (s : State) : Option (State × List Byte) := drain (.gtxStep true) fuel s

end Sys2Proof.Machine
end

