-- ==== Sys2Proof/Machine/Flags.lean ====
section
/-! DEFINITION. The one-bit state elements of R32, and the derived outputs of R33, which are functions of the state. The
block has no condition codes: no operation computes a carry, zero, sign or overflow flag (R32). -/

namespace Sys2Proof.Machine

/-- The flags of R32, but for `wrapped`, which is a field of each queued frame. -/
inductive Flag where
  | ftxEsc | ftxCkv | frxEsc | grxEsc | grxDigit | gtxEsc | gtxDigit
  deriving DecidableEq, Repr

/-- The value of a flag. -/
def State.flag (s : State) : Flag → Bool
  | .ftxEsc => s.ftx.esc
  | .ftxCkv => s.ftx.ckv
  | .frxEsc => s.frx.esc
  | .grxEsc => s.grx.esc
  | .grxDigit => s.grx.digit
  | .gtxEsc => s.gtx.esc
  | .gtxDigit => s.gtx.digit

/-- `ftx_want_write`: the FET queue is not empty (R33). -/
def State.ftxWantWrite (s : State) : Bool := !s.ftx.q.isEmpty

/-- `ftx_inflight`: the head frame is partly transmitted (R33). -/
def State.ftxInflight (s : State) : Bool := !s.ftx.q.isEmpty && s.ftx.pos != 0

/-- `gtx_want_write`: the RSP queue is not empty (R33). -/
def State.gtxWantWrite (s : State) : Bool := !s.gtx.q.isEmpty

/-- `gtx_inflight`: `gtx_state` is not `IDLE` (R33). -/
def State.gtxInflight (s : State) : Bool := s.gtx.mode != .idle

end Sys2Proof.Machine
end

