-- ==== Sys2Proof/Machine/Framing.lean ====
section
/-! DEFINITION. The wire formats as functions of a payload: escaping, whole frames and their lengths on both links
(R80 to R91, R161, R244). No operation calls the whole-frame functions; they are what the transmit steps add up to. -/

namespace Sys2Proof.Machine

/-- `escape(b)` on the FET link (R81). -/
def fetEscapeByte (b : Byte) : List Byte :=
  if fetReserved b then [Config.fetEscape, b ^^^ Config.escXor] else [b]

/-- `escape` of a sequence: the concatenation (R81). -/
def fetEscapeBytes (p : List Byte) : List Byte := p.flatMap fetEscapeByte

/-- The bytes a FET frame protects on the wire: payload, then checksum low byte, then high byte (R64, R80). -/
def fetBody (p : List Byte) : List Byte := p ++ [lo8 (crc16 p), hi8 (crc16 p)]

/-- `fet_encode(P)`: the wire bytes of one FET frame (R80, R161). -/
def fetEncode (p : List Byte) : List Byte :=
  [Config.fetSentinel] ++ fetEscapeBytes (fetBody p) ++ [Config.fetSentinel]

/-- `rsp_escape(b)` (R89, R244). -/
def rspEscapeByte (b : Byte) : List Byte :=
  if rspReserved b then [Config.rspEscape, b ^^^ Config.escXor] else [b]

/-- The payload with escaping (R87, R89). -/
def rspEscapeBytes (p : List Byte) : List Byte := p.flatMap rspEscapeByte

/-- `rsp_encode(P)`: the wire bytes of one wrapped RSP frame (R87, R244). -/
def rspEncode (p : List Byte) : List Byte :=
  [Config.rspStart] ++ rspEscapeBytes p ++ [Config.rspEnd] ++ hex2 (sum8 p)

end Sys2Proof.Machine
end

