-- ==== Sys2Proof/Safety.lean ====
section
/-! DEFINITION. What a safe state is: the invariants of R25, R27, R29 and R31 with the ranges of R24 to R30, in the terms
the statements use. -/

namespace Sys2Proof.Machine

/-- R24 and R25: lengths within the parameters; with the queue empty nothing is in flight (a); a pending escape holds a
byte that must be escaped (b); a valid cache is the head frame's checksum (d); `ftx_pos` is 0 .. len+3. The clause that a
frame in flight has its checksum cached is R152's: the step at position 0 caches it. -/
abbrev FtxOk (p : Params) (u : Ftx) : Prop :=
  (∀ m ∈ p.maxTxPayload, u.stage.length ≤ m ∧ ∀ f ∈ u.q, f.len ≤ m) ∧
  (∀ d ∈ p.fetTxqDepth, u.q.length ≤ d) ∧
  (u.q = [] → u.pos = 0 ∧ u.esc = false ∧ u.ckv = false) ∧
  ∀ f ∈ u.q.head?,
    u.pos ≤ f.len + 3 ∧ (u.pos ≠ 0 → u.ckv = true) ∧ (u.ckv = true → u.ck = crc16 f.payload) ∧
    (u.esc = true → 1 ≤ u.pos ∧ u.pos ≤ f.len + 2 ∧ ((ftxByte f.payload u.ck u.pos).map fetReserved) = some true)

/-- R26 and R27: the count never exceeds the capacity; in `HUNT` nothing is held. -/
abbrev FrxOk (p : Params) (u : Frx) : Prop :=
  u.cnt ≤ p.fetRxCap ∧ (u.mode = .hunt → u.buf = [] ∧ u.esc = false)

/-- R28 and R29: the count never exceeds the capacity; the accumulator is the sum of the stored bytes; escape and digit
flags are set only where they are used; `IDLE` has exactly one form. -/
abbrev GrxOk (p : Params) (u : Grx) : Prop :=
  u.cnt ≤ p.rspRxCap ∧ u.sum = sum8 u.buf ∧ (u.mode ≠ .payload → u.esc = false) ∧
  (u.mode ≠ .cksum → u.digit = false) ∧ (u.mode = .idle → u = Grx.reset)

/-- R30 and R31: lengths within the parameters; an unwrapped frame has exactly one byte (R232); with the queue empty the
transmitter is idle; outside `IDLE` the head frame is wrapped; in `DATA` the index is below len; a pending escape holds a
byte that must be escaped; in `CK` the cache is the head frame's sum (R241). -/
abbrev GtxOk (p : Params) (u : Gtx) : Prop :=
  (∀ m ∈ p.maxTxPayload, u.stage.length ≤ m ∧ ∀ f ∈ u.q, f.wrapped = true → f.len ≤ m) ∧
  (∀ d ∈ p.rspTxqDepth, u.q.length ≤ d) ∧
  (∀ f ∈ u.q, f.wrapped = false → f.len = 1) ∧
  (u.q = [] → u.mode = .idle) ∧
  (u.mode = .idle → u.idx = 0 ∧ u.esc = false ∧ u.digit = false) ∧
  ∀ f ∈ u.q.head?,
    (u.mode ≠ .idle → f.wrapped = true) ∧ u.idx ≤ f.len ∧ (u.mode = .data → u.idx < f.len) ∧
    (u.mode = .ck → u.ck = sum8 f.payload) ∧ (u.digit = true → u.mode = .ck) ∧
    (u.esc = true → u.mode = .data ∧ ((f.payload[u.idx]?).map rspReserved) = some true)

/-- A state the spec describes: parameters within R7's bounds and every unit's invariants. -/
abbrev State.Ok (s : State) : Prop :=
  s.params.Ok ∧ FtxOk s.params s.ftx ∧ FrxOk s.params s.frx ∧ GrxOk s.params s.grx ∧ GtxOk s.params s.gtx

/-- A state as later operations and the environment's queue see it, without the last step's report. -/
def State.silent (s : State) : State := { s with report := Report.empty }

/-- A state without what no later operation can observe: the two checksum caches (R48, R333) and the last report. -/
def State.observable (s : State) : State :=
  { s with ftx := { s.ftx with ck := 0 }, gtx := { s.gtx with ck := 0 }, report := Report.empty }

/-- The units of R1, and the system operations of R104's unit 0. -/
inductive BlockUnit where
  | sys | crc | sum | ftx | frx | grx | gtx
  deriving DecidableEq, Repr

/-- The unit an operation addresses (R104, R105); a wire byte addresses its link's receiver. -/
def unitOf : Instr → BlockUnit
  | .sysReset => .sys
  | .fetTeardown => .sys
  | .rspTeardown => .sys
  | .statRead _ => .sys
  | .crcInit => .crc
  | .crcUpd _ => .crc
  | .crcFin => .crc
  | .sumInit => .sum
  | .sumUpd _ => .sum
  | .sumFin => .sum
  | .ftxPush _ => .ftx
  | .ftxEnq => .ftx
  | .ftxStep _ => .ftx
  | .frxByte _ => .frx
  | .grxByte _ => .grx
  | .gtxPush _ => .gtx
  | .gtxEnqw => .gtx
  | .gtxEnqu _ => .gtx
  | .gtxStep _ => .gtx
  | .fetSentinel => .frx
  | .fetEscape => .frx
  | .fetData _ => .frx
  | .rspStart => .grx
  | .rspEnd => .grx
  | .rspEscape => .grx
  | .rspAck => .grx
  | .rspNak => .grx
  | .rspHexdigit _ => .grx

/-- The one unit that increments a counter (R41, R316). -/
def counterUnit : Counter → BlockUnit
  | .fetRxFrames => .frx
  | .fetRxBytes => .frx
  | .fetTxFrames => .ftx
  | .fetTxBytes => .ftx
  | .fetDiscFrames => .frx
  | .fetDiscBytes => .frx
  | .rspRxFrames => .grx
  | .rspRxBytes => .grx
  | .rspTxFrames => .gtx
  | .rspTxBytes => .gtx
  | .rspDiscFrames => .grx
  | .rspDiscBytes => .grx
  | .rspAcks => .grx
  | .rspNaks => .grx

end Sys2Proof.Machine
end

