-- ==== Sys2Proof/Certificates/Slice0/Obligations.lean ====
section
/-! DEFINITION. The statements about the block, for the provers. A rule number in a docstring is the rule of spec/ the
statement formalises or rests on. -/

open Sys2Proof Sys2Proof.Machine

/-! ### Encoding and the step -/

/-- R104, R105, R80 to R90: every well-formed operation is read back from its own encoding, with every operand. That the
wire-byte rows are operations is the model's choice (log entry 2). -/
def Obligations.DecodeOfEncodeIsIdentity : Prop :=
  ∀ i : Instr, i.WellFormed → decode (encode i) = .ok i

/-- R104, R105: what the decoder reads is well formed, and encoding it again gives the stimulus word back on the bits the
operation reads, `operandMask`: all 16 where it has an operand byte, bits 15:8 and bit 0 for a transmit step, bits 15:8
else. A byte on the FET link comes back as it was, and so does a byte on the RSP link that has a row of its own; any other
RSP byte is read as `GRX.BYTE` on it (wire bytes as operations: the model's choice, log entry 2). -/
def Obligations.DecodeDropsOnlyIgnoredBits : Prop :=
  ∀ (x : Stim) (i : Instr), decode x = .ok i →
    i.WellFormed ∧
    (∀ w, x = .word w → encode i = .word (w &&& operandMask i)) ∧
    (∀ b, x = .fetByte b → encode i = .fetByte b) ∧
    ∀ b, x = .rspByte b →
      if b = 0x24 ∨ b = 0x23 ∨ b = 0x7D ∨ b = 0x2B ∨ b = 0x2D ∨ (hexval b).isSome = true then encode i = .rspByte b
      else i = .grxByte b

/-- R106: the words of the reserved codes, and of `STAT.READ` with an index above 13, are refused wherever the
environment gives them; every other word is an operation. -/
def Obligations.ReservedWordsAreRefused : Prop :=
  ∀ w : Half,
    let c := w.toNat / 256
    let d := w.toNat % 256
    let reserved := (0x04 ≤ c ∧ c ≤ 0x0F) ∨ (0x13 ≤ c ∧ c ≤ 0x1F) ∨ (0x23 ≤ c ∧ c ≤ 0x2F) ∨ (0x33 ≤ c ∧ c ≤ 0x3F) ∨
      (0x41 ≤ c ∧ c ≤ 0x4F) ∨ (0x51 ≤ c ∧ c ≤ 0x5F) ∨ (0x64 ≤ c ∧ c ≤ 0xFF) ∨ (c = 0x03 ∧ 13 < d)
    (reserved → ∀ (s : State) (rest : List Stim), s.stim = .word w :: rest → ∃ r, step s = .refused r) ∧
    (¬reserved → ∃ i, decode (.word w) = .ok i)

/-- R13, R70: a step takes the environment's next stimulus and is the operation it decodes to, run on the state with that
stimulus taken; R320: with no stimulus given the block does nothing. That the stimuli stand in the state is the model's
choice (log entry 5). -/
def Obligations.StepRunsTheDecodedOperation : Prop :=
  (∀ (s : State) (x : Stim) (rest : List Stim) (i : Instr), s.stim = x :: rest → decode x = .ok i →
    step s = exec i { s with stim := rest }) ∧
  ∀ s : State, s.stim = [] → step s = .next { s with report := Report.empty }

/-- R104, R105, R107: words written out from the tables, one of each unit, decode to their operations. R81, R89: the byte
0x7D is the row FET.ESCAPE on the FET link and RSP.ESCAPE on the RSP link; that these rows are operations is the model's
choice (log entry 2). -/
def Obligations.PrintedWordsDecode : Prop :=
  decode (.word 0x030D) = .ok (.statRead 13) ∧ decode (.word 0x117E) = .ok (.crcUpd 0x7E) ∧
  decode (.word 0x2130) = .ok (.sumUpd 0x30) ∧ decode (.word 0x3200) = .ok (.ftxStep false) ∧
  decode (.word 0x3201) = .ok (.ftxStep true) ∧ decode (.word 0x407E) = .ok (.frxByte 0x7E) ∧
  decode (.word 0x5024) = .ok (.grxByte 0x24) ∧ decode (.word 0x622B) = .ok (.gtxEnqu 0x2B) ∧
  decode (.fetByte 0x7D) = .ok .fetEscape ∧ decode (.rspByte 0x7D) = .ok .rspEscape

/-! ### The checksum units -/

/-- R124, R126: `CRC.INIT`, the word 0x1000, seeds the register; `CRC.FIN`, the word 0x1200, reports its complement and
changes nothing. -/
def Obligations.CrcInitSeedsAndFinComplements : Prop :=
  decode (.word 0x1000) = .ok .crcInit ∧ decode (.word 0x1200) = .ok .crcFin ∧
  ∀ s : State,
    exec .crcInit s = .next { s with crcReg := 0xFFFF, report := Report.empty } ∧
    exec .crcFin s = .next { s with report := { result := .crc (~~~s.crcReg), event := none } }

/-- R125 (its formula is the spec's general knowledge, its bit-serial form the spec's derivation): `CRC.UPD b` replaces
the register by the table step, which is also the bit-serial step, and changes nothing else. -/
def Obligations.CrcUpdIsBothForms : Prop :=
  ∀ (s : State) (b : Byte),
    exec (.crcUpd b) s = .next { s with
      crcReg := crcTable ((s.crcReg ^^^ b.setWidth 16).setWidth 8) ^^^ (s.crcReg >>> 8), report := Report.empty } ∧
    crcTable ((s.crcReg ^^^ b.setWidth 16).setWidth 8) ^^^ (s.crcReg >>> 8) = crcSerial s.crcReg b

/-- R108, R127: the pseudo-operation `CRC16 P` reports `crc16(P)` last, and touches the CRC register alone. -/
def Obligations.Crc16PseudoOperationReportsCrc16 : Prop :=
  ∀ (p : List Byte) (s : State), ∃ t rs, runAll (pseudoCrc16 p) s = some (t, rs) ∧
    rs.getLast? = some { result := .crc (crc16 p), event := none } ∧
    t.silent = { s with crcReg := ~~~(crc16 p) }.silent

/-- R130 (the spec's derivation): a payload followed by its own checksum leaves the register at 0xF0B8. -/
def Obligations.CrcResidueIsConstant : Prop :=
  ∀ p : List Byte, crcFrom 0xFFFF (fetBody p) = 0xF0B8 ∧ crc16 (fetBody p) = 0x0F47

/-- R130 (the spec's derivation): comparing the last two bytes with the checksum of the rest, and testing the residue,
accept exactly the same sequences. -/
def Obligations.ResidueTestAcceptsTheSameFrames : Prop :=
  ∀ (p : List Byte) (lo hi : Byte),
    crcFrom 0xFFFF (p ++ [lo, hi]) = 0xF0B8 ↔ (lo8 (crc16 p) = lo ∧ hi8 (crc16 p) = hi)

/-- R131 (the spec's general knowledge): every change of one byte to another value changes the CRC. -/
def Obligations.CrcSeesEveryOneByteChange : Prop :=
  ∀ (p q : List Byte) (b b' : Byte), b ≠ b' → crc16 (p ++ b :: q) ≠ crc16 (p ++ b' :: q)

/-- R141, R142, R143: `SUM.INIT` clears the register, `SUM.UPD b` adds modulo 256, `SUM.FIN` reports it unchanged; nothing
else changes. -/
def Obligations.SumClearsAddsAndReports : Prop :=
  ∀ (s : State) (b : Byte),
    decode (.word 0x2000) = .ok .sumInit ∧ decode (.word (0x2100 + b.setWidth 16)) = .ok (.sumUpd b) ∧
    decode (.word 0x2200) = .ok .sumFin ∧
    exec .sumInit s = .next { s with sumReg := 0x00, report := Report.empty } ∧
    (∃ v : Byte, exec (.sumUpd b) s = .next { s with sumReg := v, report := Report.empty } ∧
      v.toNat = (s.sumReg.toNat + b.toNat) % 256) ∧
    exec .sumFin s = .next { s with report := { result := .sum s.sumReg, event := none } }

/-- R108, R144: the pseudo-operation `SUM8 P` reports the sum of the bytes modulo 256, and touches the SUM register
alone. -/
def Obligations.Sum8PseudoOperationReportsTheSum : Prop :=
  ∀ (p : List Byte) (s : State), ∃ t rs, runAll (pseudoSum8 p) s = some (t, rs) ∧
    rs.getLast? = some { result := .sum (sum8 p), event := none } ∧
    (sum8 p).toNat = (p.map BitVec.toNat).sum % 256 ∧
    t.silent = { s with sumReg := sum8 p }.silent

/-- R147 (the spec's derivation): `sum8` is blind to order, additive over concatenation, and does not see zero bytes. -/
def Obligations.Sum8IsAdditiveAndBlindToOrder : Prop :=
  (∀ p q : List Byte, p.Perm q → sum8 p = sum8 q) ∧
  (∀ p q : List Byte, (sum8 (p ++ q)).toNat = ((sum8 p).toNat + (sum8 q).toNat) % 256) ∧
  ∀ p q : List Byte, sum8 (p ++ 0 :: q) = sum8 (p ++ q)

/-! ### Handing in frames -/

/-- R150, R230: `FTX.PUSH b` and `GTX.PUSH b` report `full` and change nothing where the staging buffer holds
`MAX_TX_PAYLOAD` bytes; else they append `b` to it and report `ok`, and every other byte of every buffer, and all other
state, stays. -/
def Obligations.PushStagesOneByte : Prop :=
  ∀ (s : State) (b : Byte),
    decode (.word (0x3000 + b.setWidth 16)) = .ok (.ftxPush b) ∧
    decode (.word (0x6000 + b.setWidth 16)) = .ok (.gtxPush b) ∧
    (s.params.maxTxPayload = some s.ftx.stage.length →
      exec (.ftxPush b) s = .next { s with report := { result := .full, event := none } }) ∧
    (s.params.maxTxPayload ≠ some s.ftx.stage.length → ∃ t, exec (.ftxPush b) s = .next t ∧
      t = { s with ftx := { s.ftx with stage := s.ftx.stage ++ [b] }, report := { result := .ok, event := none } } ∧
      t.memRead .ftxStage s.ftx.stage.length = some b ∧
      ∀ buf k, ¬(buf = .ftxStage ∧ k = s.ftx.stage.length) → t.memRead buf k = s.memRead buf k) ∧
    (s.params.maxTxPayload = some s.gtx.stage.length →
      exec (.gtxPush b) s = .next { s with report := { result := .full, event := none } }) ∧
    (s.params.maxTxPayload ≠ some s.gtx.stage.length → ∃ t, exec (.gtxPush b) s = .next t ∧
      t = { s with gtx := { s.gtx with stage := s.gtx.stage ++ [b] }, report := { result := .ok, event := none } } ∧
      t.memRead .gtxStage s.gtx.stage.length = some b ∧
      ∀ buf k, ¬(buf = .gtxStage ∧ k = s.gtx.stage.length) → t.memRead buf k = s.memRead buf k)

/-- R160, R231, R232: `FTX.ENQ`, `GTX.ENQW` and `GTX.ENQU b` report `full` and change nothing where the queue holds its
`..._TXQ_DEPTH` frames; else they append one frame at the tail, the first two clearing the staging buffer, and the link
wants to write. -/
def Obligations.EnqueueAppendsOneFrame : Prop :=
  ∀ (s : State) (b : Byte),
    decode (.word 0x3100) = .ok .ftxEnq ∧ decode (.word 0x6100) = .ok .gtxEnqw ∧
    decode (.word (0x6200 + b.setWidth 16)) = .ok (.gtxEnqu b) ∧
    (s.params.fetTxqDepth = some s.ftx.q.length →
      exec .ftxEnq s = .next { s with report := { result := .full, event := none } }) ∧
    (s.params.fetTxqDepth ≠ some s.ftx.q.length → ∃ t, exec .ftxEnq s = .next t ∧ t.ftxWantWrite = true ∧
      t = { s with ftx := { s.ftx with q := s.ftx.q ++ [⟨s.ftx.stage⟩], stage := [] },
                   report := { result := .ok, event := none } }) ∧
    (s.params.rspTxqDepth = some s.gtx.q.length →
      exec .gtxEnqw s = .next { s with report := { result := .full, event := none } } ∧
      exec (.gtxEnqu b) s = .next { s with report := { result := .full, event := none } }) ∧
    (s.params.rspTxqDepth ≠ some s.gtx.q.length →
      (∃ t, exec .gtxEnqw s = .next t ∧ t.gtxWantWrite = true ∧
        t = { s with gtx := { s.gtx with q := s.gtx.q ++ [⟨true, s.gtx.stage⟩], stage := [] },
                     report := { result := .ok, event := none } }) ∧
      ∃ t, exec (.gtxEnqu b) s = .next t ∧ t.gtxWantWrite = true ∧
        t = { s with gtx := { s.gtx with q := s.gtx.q ++ [⟨false, [b]⟩] },
                     report := { result := .ok, event := none } })

/-! ### Transmit steps -/

/-- R151, R234 (their first two cases): with the queue empty, or the transport not ready, `FTX.STEP` and `GTX.STEP` report
`none` and change nothing. -/
def Obligations.RefusedTransmitStepChangesNothing : Prop :=
  ∀ (s : State) (r : Bool),
    ((s.ftx.q = [] ∨ r = false) →
      exec (.ftxStep r) s = .next { s with report := { result := .noByte, event := none } }) ∧
    ((s.gtx.q = [] ∨ r = false) →
      exec (.gtxStep r) s = .next { s with report := { result := .noByte, event := none } })

/-- R152 to R159: an accepted `FTX.STEP` on head frame `f`, case by case. The byte of R153 is the payload byte at
`ftx_pos` - 1, or the low or the high byte of the cached checksum. That the cache keeps its value at retirement is the
model's choice (93 U3, log entry 17). -/
def Obligations.FtxAcceptedStepByPosition : Prop :=
  ∀ (s : State) (f : Frame) (rest : List Frame), s.ftx.q = f :: rest →
    let ck := if s.ftx.ckv then s.ftx.ck else crc16 f.payload
    let u : Ftx := { s.ftx with ck := ck, ckv := true }
    (s.ftx.pos = 0 →
      exec (.ftxStep true) s = .next { s with ftx := { u with pos := 1 },
                                              report := { result := .wire 0x7E, event := none } }) ∧
    (∀ b : Byte,
      ((1 ≤ s.ftx.pos ∧ s.ftx.pos ≤ f.len ∧ f.payload[s.ftx.pos - 1]? = some b) ∨
        (s.ftx.pos = f.len + 1 ∧ b = lo8 ck) ∨ (s.ftx.pos = f.len + 2 ∧ b = hi8 ck)) →
      (s.ftx.esc = false → (b = 0x7E ∨ b = 0x7D) →
        exec (.ftxStep true) s = .next { s with ftx := { u with esc := true },
                                                report := { result := .wire 0x7D, event := none } }) ∧
      (s.ftx.esc = true →
        exec (.ftxStep true) s = .next { s with ftx := { u with esc := false, pos := s.ftx.pos + 1 },
                                                report := { result := .wire (b ^^^ 0x20), event := none } }) ∧
      (s.ftx.esc = false → b ≠ 0x7E → b ≠ 0x7D →
        exec (.ftxStep true) s = .next { s with ftx := { u with pos := s.ftx.pos + 1 },
                                                report := { result := .wire b, event := none } })) ∧
    (s.ftx.pos = f.len + 3 →
      exec (.ftxStep true) s = .next { s with
        ftx := { u with q := rest, pos := 0, esc := false, ckv := false }
        stats := { s.stats with fetTxFrames := s.stats.fetTxFrames + 1, fetTxBytes := s.stats.fetTxBytes + f.len }
        report := { result := .wire 0x7E, event := some .ftxRetired } })

/-- R235 to R243: an accepted `GTX.STEP` on head frame `f`, state by state. That the cached sum keeps its value outside
`CK`, at retirement too, is the model's choice (93 U3, log entry 17). -/
def Obligations.GtxAcceptedStepByState : Prop :=
  ∀ (s : State) (f : TaggedFrame) (rest : List TaggedFrame), s.gtx.q = f :: rest →
    (s.gtx.mode = .idle → f.wrapped = false → ∀ b, f.payload[0]? = some b →
      exec (.gtxStep true) s = .next { s with
        gtx := { s.gtx with q := rest }
        stats := { s.stats with rspTxFrames := s.stats.rspTxFrames + 1, rspTxBytes := s.stats.rspTxBytes + 1 }
        report := { result := .wire b, event := some .gtxRetired } }) ∧
    (s.gtx.mode = .idle → f.wrapped = true →
      exec (.gtxStep true) s = .next { s with
        gtx := { s.gtx with idx := 0, esc := false, mode := if f.payload = [] then .ckb else .data }
        report := { result := .wire 0x24, event := none } }) ∧
    (s.gtx.mode = .data → ∀ b, f.payload[s.gtx.idx]? = some b →
      let next := if s.gtx.idx + 1 = f.len then GtxMode.ckb else GtxMode.data
      (s.gtx.esc = false → (b = 0x23 ∨ b = 0x24 ∨ b = 0x7D) →
        exec (.gtxStep true) s = .next { s with
          gtx := { s.gtx with esc := true }, report := { result := .wire 0x7D, event := none } }) ∧
      (s.gtx.esc = true →
        exec (.gtxStep true) s = .next { s with
          gtx := { s.gtx with esc := false, idx := s.gtx.idx + 1, mode := next }
          report := { result := .wire (b ^^^ 0x20), event := none } }) ∧
      (s.gtx.esc = false → b ≠ 0x23 → b ≠ 0x24 → b ≠ 0x7D →
        exec (.gtxStep true) s = .next { s with
          gtx := { s.gtx with idx := s.gtx.idx + 1, mode := next }
          report := { result := .wire b, event := none } })) ∧
    (s.gtx.mode = .ckb →
      exec (.gtxStep true) s = .next { s with
        gtx := { s.gtx with ck := sum8 f.payload, digit := false, mode := .ck }
        report := { result := .wire 0x23, event := none } }) ∧
    (s.gtx.mode = .ck → s.gtx.digit = false → ∃ hi lo, hex2 s.gtx.ck = [hi, lo] ∧
      exec (.gtxStep true) s = .next { s with
        gtx := { s.gtx with digit := true }, report := { result := .wire hi, event := none } }) ∧
    (s.gtx.mode = .ck → s.gtx.digit = true → ∃ hi lo, hex2 s.gtx.ck = [hi, lo] ∧
      exec (.gtxStep true) s = .next { s with
        gtx := { s.gtx with q := rest, digit := false, idx := 0, mode := .idle }
        stats := { s.stats with rspTxFrames := s.stats.rspTxFrames + 1, rspTxBytes := s.stats.rspTxBytes + f.len }
        report := { result := .wire lo, event := some .gtxRetired } })

/-- R161 (the spec's derivation): as many accepted steps as the encoded frame has bytes emit exactly `fet_encode` of the
head frame's payload, retire it with the last byte, and leave everything else alone. That the cache then still holds the
retired frame's checksum is the model's choice (93 U3, log entry 17). -/
def Obligations.FtxStepsEmitTheEncodedFrame : Prop :=
  ∀ (s : State) (f : Frame) (rest : List Frame), s.ftx.q = f :: rest → s.ftx.pos = 0 → s.ftx.esc = false →
    (s.ftx.ckv = true → s.ftx.ck = crc16 f.payload) →
    ∃ t rs, runAll (List.replicate (fetEncode f.payload).length (.ftxStep true)) s = some (t, rs) ∧
      rs.map Report.result = (fetEncode f.payload).map Result.wire ∧ events rs = [.ftxRetired] ∧
      t.silent = { s with
        ftx := { s.ftx with q := rest, pos := 0, esc := false, ck := crc16 f.payload, ckv := false }
        stats := { s.stats with
          fetTxFrames := s.stats.fetTxFrames + 1, fetTxBytes := s.stats.fetTxBytes + f.len } }.silent

/-- R244 (the spec's derivation): as many accepted steps as the encoded frame has bytes emit exactly `rsp_encode` of a
wrapped head frame's payload, retire it with the last byte, and leave everything else alone. That the cache then still holds the
retired frame's sum is the model's choice (93 U3, log entry 17). -/
def Obligations.GtxStepsEmitTheEncodedFrame : Prop :=
  ∀ (s : State) (p : List Byte) (rest : List TaggedFrame), s.gtx.q = ⟨true, p⟩ :: rest → s.gtx.mode = .idle →
    ∃ t rs, runAll (List.replicate (rspEncode p).length (.gtxStep true)) s = some (t, rs) ∧
      rs.map Report.result = (rspEncode p).map Result.wire ∧ events rs = [.gtxRetired] ∧
      t.silent = { s with
        gtx := { s.gtx with q := rest, mode := .idle, idx := 0, esc := false, ck := sum8 p, digit := false }
        stats := { s.stats with
          rspTxFrames := s.stats.rspTxFrames + 1, rspTxBytes := s.stats.rspTxBytes + p.length } }.silent

/-- R69, R108, R161, R244 (the spec's derivations): `FTX.DRAIN` and `GTX.DRAIN`, from between two frames, emit every
queued frame's encoding back to back in queue order, a bare byte for an unwrapped frame, count each frame, and leave the
queue empty. -/
def Obligations.DrainSendsEveryQueuedFrame : Prop :=
  ∀ s : State,
    (s.ftx.pos = 0 → s.ftx.esc = false → s.ftx.ckv = false →
      ∃ fuel t, ftxDrain fuel s = some (t, s.ftx.q.flatMap fun f => fetEncode f.payload) ∧ t.ftx.q = [] ∧
        t.stats.fetTxFrames = s.stats.fetTxFrames + s.ftx.q.length) ∧
    (s.gtx.mode = .idle → (∀ f ∈ s.gtx.q, f.wrapped = false → f.len = 1) →
      ∃ fuel t, gtxDrain fuel s =
          some (t, s.gtx.q.flatMap fun f => if f.wrapped then rspEncode f.payload else f.payload) ∧ t.gtx.q = [] ∧
        t.stats.rspTxFrames = s.stats.rspTxFrames + s.gtx.q.length)

/-- R151, R246 (e), R334: whatever the pattern of readiness, the same bytes and events come out and the same state is
reached as when the refused steps are left out. -/
def Obligations.ReadinessPatternIsInvisible : Prop :=
  ∀ (pattern : List Bool) (s : State),
    ((runAll (pattern.map .ftxStep) s).map fun r => (r.1.silent, wireBytes r.2, events r.2)) =
      ((runAll ((pattern.filter id).map .ftxStep) s).map fun r => (r.1.silent, wireBytes r.2, events r.2)) ∧
    ((runAll (pattern.map .gtxStep) s).map fun r => (r.1.silent, wireBytes r.2, events r.2)) =
      ((runAll ((pattern.filter id).map .gtxStep) s).map fun r => (r.1.silent, wireBytes r.2, events r.2))

/-! ### Receive steps -/

/-- R171 to R183: `FRX.BYTE b`, case by case in the order of R170. -/
def Obligations.FetByteByStateAndClass : Prop :=
  ∀ (b : Byte) (s : State),
    let discard : Err → Nat → State := fun e n => { s with
      frx := { mode := .hunt, buf := [], esc := false }
      stats := { s.stats with
        fetDiscFrames := s.stats.fetDiscFrames + 1, fetDiscBytes := s.stats.fetDiscBytes + n }
      report := { result := .nothing, event := some (.err e n) } }
    let store : Byte → State := fun v =>
      if s.frx.cnt = s.params.fetRxCap then discard .fetOverflow s.frx.cnt
      else { s with frx := { s.frx with buf := s.frx.buf ++ [v], esc := false }, report := Report.empty }
    (s.frx.mode = .hunt → b = 0x7E →
      exec (.frxByte b) s = .next { s with frx := { mode := .assemble, buf := [], esc := false }, report := Report.empty }) ∧
    (s.frx.mode = .hunt → b ≠ 0x7E → exec (.frxByte b) s = .next { s with report := Report.empty }) ∧
    (s.frx.mode = .assemble → b = 0x7E → s.frx.esc = true → exec (.frxByte b) s = .next (discard .fetAbort s.frx.cnt)) ∧
    (s.frx.mode = .assemble → b = 0x7E → s.frx.esc = false → s.frx.buf = [] →
      exec (.frxByte b) s = .next { s with report := Report.empty }) ∧
    (s.frx.mode = .assemble → b = 0x7E → s.frx.esc = false → s.frx.cnt = 1 →
      exec (.frxByte b) s = .next (discard .fetShort 1)) ∧
    (∀ (p : List Byte) (lo hi : Byte), s.frx.mode = .assemble → b = 0x7E → s.frx.esc = false →
      s.frx.buf = p ++ [lo, hi] →
      (lo8 (crc16 p) = lo ∧ hi8 (crc16 p) = hi →
        exec (.frxByte b) s = .next { s with
          frx := { s.frx with buf := [] }
          stats := { s.stats with
            fetRxFrames := s.stats.fetRxFrames + 1, fetRxBytes := s.stats.fetRxBytes + p.length }
          report := { result := .nothing, event := some (.deliver .frx p) } }) ∧
      (¬(lo8 (crc16 p) = lo ∧ hi8 (crc16 p) = hi) → exec (.frxByte b) s = .next (discard .fetCksum (p.length + 2)))) ∧
    (s.frx.mode = .assemble → s.frx.esc = true → b ≠ 0x7E → exec (.frxByte b) s = .next (store (b ^^^ 0x20))) ∧
    (s.frx.mode = .assemble → s.frx.esc = false → b = 0x7D →
      exec (.frxByte b) s = .next { s with frx := { s.frx with esc := true }, report := Report.empty }) ∧
    (s.frx.mode = .assemble → s.frx.esc = false → b ≠ 0x7E → b ≠ 0x7D → exec (.frxByte b) s = .next (store b))

/-- R202 to R214: `GRX.BYTE b`, case by case in the order of R200. -/
def Obligations.RspByteByStateAndClass : Prop :=
  ∀ (b : Byte) (s : State),
    let idle : Grx := { mode := .idle, buf := [], esc := false, sum := 0, rck := 0, digit := false }
    let discard : Err → Nat → State := fun e n => { s with
      grx := idle
      stats := { s.stats with
        rspDiscFrames := s.stats.rspDiscFrames + 1, rspDiscBytes := s.stats.rspDiscBytes + n }
      report := { result := .nothing, event := some (.err e n) } }
    let v := if s.grx.esc then b ^^^ 0x20 else b
    (s.grx.mode = .idle → b = 0x24 →
      exec (.grxByte b) s = .next { s with
        grx := { s.grx with mode := .payload, buf := [], sum := 0, esc := false }, report := Report.empty }) ∧
    (s.grx.mode = .idle → b = 0x2B →
      exec (.grxByte b) s = .next { s with
        stats := { s.stats with rspAcks := s.stats.rspAcks + 1 }
        report := { result := .nothing, event := some .ack } }) ∧
    (s.grx.mode = .idle → b = 0x2D →
      exec (.grxByte b) s = .next { s with
        stats := { s.stats with rspNaks := s.stats.rspNaks + 1 }
        report := { result := .nothing, event := some .nak } }) ∧
    (s.grx.mode = .idle → b ≠ 0x24 → b ≠ 0x2B → b ≠ 0x2D → exec (.grxByte b) s = .next { s with report := Report.empty }) ∧
    (s.grx.mode = .payload → b = 0x23 →
      exec (.grxByte b) s = .next { s with
        grx := { s.grx with mode := .cksum, esc := false, rck := 0, digit := false }, report := Report.empty }) ∧
    (s.grx.mode = .payload → b = 0x7D →
      exec (.grxByte b) s = .next { s with grx := { s.grx with esc := true }, report := Report.empty }) ∧
    (s.grx.mode = .payload → b ≠ 0x23 → b ≠ 0x7D → s.grx.cnt ≠ s.params.rspRxCap →
      exec (.grxByte b) s = .next { s with
        grx := { s.grx with buf := s.grx.buf ++ [v], sum := s.grx.sum + v, esc := false }, report := Report.empty }) ∧
    (s.grx.mode = .payload → b ≠ 0x23 → b ≠ 0x7D → s.grx.cnt = s.params.rspRxCap →
      exec (.grxByte b) s = .next (discard .rspOverflow s.grx.cnt)) ∧
    (s.grx.mode = .cksum → hexval b = none → exec (.grxByte b) s = .next (discard .rspNonhex s.grx.cnt)) ∧
    (∀ d, s.grx.mode = .cksum → hexval b = some d →
      (s.grx.digit = false →
        exec (.grxByte b) s = .next { s with
          grx := { s.grx with rck := d <<< 4, digit := true }, report := Report.empty }) ∧
      (s.grx.digit = true → s.grx.sum = s.grx.rck ||| d →
        exec (.grxByte b) s = .next { s with
          grx := idle
          stats := { s.stats with
            rspRxFrames := s.stats.rspRxFrames + 1, rspRxBytes := s.stats.rspRxBytes + s.grx.cnt }
          report := { result := .nothing, event := some (.deliver .grx s.grx.buf) } }) ∧
      (s.grx.digit = true → s.grx.sum ≠ s.grx.rck ||| d → exec (.grxByte b) s = .next (discard .rspCksum s.grx.cnt)))

/-- R14, R84, R92: each wire-byte row of the opcode table answers what the receive operation of its link answers for its
byte; and, row by row, what it does where the table's context column places it. That a row is an operation, and that it is
its byte's reception, is the model's choice (log entry 2). -/
def Obligations.WireByteRowsReceiveTheirByte : Prop :=
  ∀ (s : State),
    (∀ i b, fetWireByte i = some b → ∃ t, exec i s = .next t ∧ exec (.frxByte b) s = .next t) ∧
    (∀ i b, rspWireByte i = some b → ∃ t, exec i s = .next t ∧ exec (.grxByte b) s = .next t) ∧
    (s.frx.mode = .hunt → exec .fetSentinel s = .next { s with
      frx := { mode := .assemble, buf := [], esc := false }, report := Report.empty }) ∧
    (s.frx.mode = .assemble → s.frx.esc = false → exec .fetEscape s = .next { s with
      frx := { s.frx with esc := true }, report := Report.empty }) ∧
    (∀ b, s.frx.mode = .assemble → s.frx.esc = false → s.frx.cnt ≠ s.params.fetRxCap →
      (Instr.fetData b).WellFormed → exec (.fetData b) s = .next { s with
        frx := { s.frx with buf := s.frx.buf ++ [b] }, report := Report.empty }) ∧
    (s.grx.mode = .idle →
      exec .rspStart s = .next { s with
        grx := { s.grx with mode := .payload, buf := [], sum := 0, esc := false }, report := Report.empty } ∧
      exec .rspAck s = .next { s with
        stats := { s.stats with rspAcks := s.stats.rspAcks + 1 }
        report := { result := .nothing, event := some .ack } } ∧
      exec .rspNak s = .next { s with
        stats := { s.stats with rspNaks := s.stats.rspNaks + 1 }
        report := { result := .nothing, event := some .nak } }) ∧
    (s.grx.mode = .payload →
      exec .rspEnd s = .next { s with
        grx := { s.grx with mode := .cksum, esc := false, rck := 0, digit := false }, report := Report.empty } ∧
      exec .rspEscape s = .next { s with grx := { s.grx with esc := true }, report := Report.empty }) ∧
    (∀ b d, s.grx.mode = .cksum → s.grx.digit = false → hexval b = some d →
      exec (.rspHexdigit b) s = .next { s with
        grx := { s.grx with rck := d <<< 4, digit := true }, report := Report.empty })

/-- R185's last sentence and R212: whatever operation delivers a payload, the buffer held exactly that payload with its
right CRC (FET), or that payload with the sum the two received digits make (RSP). -/
def Obligations.DeliveredFramesPassedTheirCheck : Prop :=
  ∀ (i : Instr) (s t : State) (p : List Byte), exec i s = .next t →
    (t.report.event = some (.deliver .frx p) →
      fetWireByte i = some 0x7E ∧ s.frx.mode = .assemble ∧ s.frx.esc = false ∧
      s.frx.buf = p ++ [lo8 (crc16 p), hi8 (crc16 p)]) ∧
    (t.report.event = some (.deliver .grx p) →
      s.grx.mode = .cksum ∧ s.grx.digit = true ∧ s.grx.buf = p ∧
      ∃ b d, rspWireByte i = some b ∧ hexval b = some d ∧ s.grx.sum = s.grx.rck ||| d)

/-- R204, R205, R206: ACK and NAK are reported exactly for a `+` or a `-` received in `IDLE`, by `GRX.BYTE` or by a
wire-byte row (the model's choice, log entry 2). -/
def Obligations.AckAndNakAreReportedExactlyInIdle : Prop :=
  ∀ (i : Instr) (s : State),
    ((∃ t, exec i s = .next t ∧ t.report.event = some .ack) ↔ (rspWireByte i = some 0x2B ∧ s.grx.mode = .idle)) ∧
    ((∃ t, exec i s = .next t ∧ t.report.event = some .nak) ↔ (rspWireByte i = some 0x2D ∧ s.grx.mode = .idle))

/-! ### Whole frames on both links -/

/-- R81, R83, R89, R91: an escaped sequence holds no FET sentinel, an escaped RSP payload neither `#` nor `$`; the wire
lengths are the spec's sums. -/
def Obligations.EncodedFramesAreDelimitedAndMeasured : Prop :=
  ∀ p : List Byte,
    (0x7E : Byte) ∉ fetEscapeBytes p ∧
    (fetEncode p).length = 2 + ((fetBody p).map fun b => if b = 0x7E ∨ b = 0x7D then 2 else 1).sum ∧
    (0x23 : Byte) ∉ rspEscapeBytes p ∧ (0x24 : Byte) ∉ rspEscapeBytes p ∧
    (rspEncode p).length = 4 + (p.map fun b => if b = 0x23 ∨ b = 0x24 ∨ b = 0x7D then 2 else 1).sum

/-- R184 (the spec's derivation): an encoded payload that fits, fed byte by byte to an empty FET decoder in either state,
is delivered exactly once and nothing else is reported; the decoder ends empty and only its two counters move. -/
def Obligations.FetFrameRoundTrip : Prop :=
  ∀ (p : List Byte) (s : State), s.frx.buf = [] → s.frx.esc = false → p.length + 2 ≤ s.params.fetRxCap →
    ∃ t rs, runAll (frxFeed (fetEncode p)) s = some (t, rs) ∧ events rs = [.deliver .frx p] ∧
      t.silent = { s with
        frx := { mode := .assemble, buf := [], esc := false }
        stats := { s.stats with
          fetRxFrames := s.stats.fetRxFrames + 1, fetRxBytes := s.stats.fetRxBytes + p.length } }.silent

/-- R216 (the spec's derivation): an encoded payload that fits, fed byte by byte to the RSP receiver in `IDLE`, is
delivered exactly once and nothing else is reported; the receiver ends in the one form of `IDLE` and only its two counters
move. -/
def Obligations.RspFrameRoundTrip : Prop :=
  ∀ (p : List Byte) (s : State), s.grx.mode = .idle → p.length ≤ s.params.rspRxCap →
    ∃ t rs, runAll (grxFeed (rspEncode p)) s = some (t, rs) ∧ events rs = [.deliver .grx p] ∧
      t.silent = { s with
        grx := { mode := .idle, buf := [], esc := false, sum := 0, rck := 0, digit := false }
        stats := { s.stats with
          rspRxFrames := s.stats.rspRxFrames + 1, rspRxBytes := s.stats.rspRxBytes + p.length } }.silent

/-- R108, R161, R184: a payload handed to an idle FET transmitter by `FTX.SEND`, stepped out and fed to an empty FET
decoder, is delivered as it was. -/
def Obligations.FetLinkCarriesAPayload : Prop :=
  ∀ (p : List Byte) (s : State), s.ftx.stage = [] → s.ftx.q = [] → s.ftx.pos = 0 → s.ftx.esc = false →
    s.ftx.ckv = false → (∀ m ∈ s.params.maxTxPayload, p.length ≤ m) → s.params.fetTxqDepth ≠ some 0 →
    s.frx.buf = [] → s.frx.esc = false → p.length + 2 ≤ s.params.fetRxCap →
    ∃ n t rs u es, runAll (ftxSend p ++ List.replicate n (.ftxStep true)) s = some (t, rs) ∧
      runAll (frxFeed (wireBytes rs)) t = some (u, es) ∧ events es = [.deliver .frx p] ∧ u.ftx.q = [] ∧
      u.ftx.stage = []

/-- R108, R216, R244: a payload handed to an idle RSP transmitter by `GTX.SENDW`, stepped out and fed to the RSP receiver
in `IDLE`, is delivered as it was. -/
def Obligations.RspLinkCarriesAPayload : Prop :=
  ∀ (p : List Byte) (s : State), s.gtx.stage = [] → s.gtx.q = [] → s.gtx.mode = .idle →
    (∀ m ∈ s.params.maxTxPayload, p.length ≤ m) → s.params.rspTxqDepth ≠ some 0 →
    s.grx.mode = .idle → p.length ≤ s.params.rspRxCap →
    ∃ n t rs u es, runAll (gtxSendw p ++ List.replicate n (.gtxStep true)) s = some (t, rs) ∧
      runAll (grxFeed (wireBytes rs)) t = some (u, es) ∧ events es = [.deliver .grx p] ∧ u.gtx.q = [] ∧
      u.gtx.stage = []

/-- R301, R310: recovery is by input alone. From every state two sentinels empty the FET decoder, and a `#` and a byte
that is no hex digit bring the RSP receiver to `IDLE`; the next frame is then delivered. -/
def Obligations.ReceiversRecoverByInputAlone : Prop :=
  ∀ (p : List Byte) (s : State),
    (p.length + 2 ≤ s.params.fetRxCap →
      ∃ t rs, runAll (frxFeed ([0x7E, 0x7E] ++ fetEncode p)) s = some (t, rs) ∧
        (events rs).getLast? = some (.deliver .frx p) ∧ t.frx = { mode := .assemble, buf := [], esc := false }) ∧
    (p.length ≤ s.params.rspRxCap →
      ∃ t rs, runAll (grxFeed ([0x23, 0x78] ++ rspEncode p)) s = some (t, rs) ∧
        (events rs).getLast? = some (.deliver .grx p) ∧ t.grx = Grx.reset)

/-! ### Reset, teardown, statistics -/

/-- R50, R260: `SYS.RESET`, the word 0x0000 with `data` ignored, gives every piece of state the value R50 states, from
every state, and reports nothing. Of `ftx_ck` and `gtx_ck`, which R50 leaves unspecified, nothing is said. -/
def Obligations.SysResetGivesTheStatedValues : Prop :=
  (∀ d : Byte, decode (.word (d.setWidth 16)) = .ok .sysReset) ∧
  ∀ s : State, ∃ t, exec .sysReset s = .next t ∧
    t.crcReg = 0xFFFF ∧ t.sumReg = 0x00 ∧
    t.ftx.stage = [] ∧ t.ftx.q = [] ∧ t.ftx.pos = 0 ∧ t.ftx.esc = false ∧ t.ftx.ckv = false ∧
    t.frx = { mode := .hunt, buf := [], esc := false } ∧
    t.grx = { mode := .idle, buf := [], esc := false, sum := 0, rck := 0, digit := false } ∧
    t.gtx.stage = [] ∧ t.gtx.q = [] ∧ t.gtx.mode = .idle ∧ t.gtx.idx = 0 ∧ t.gtx.esc = false ∧ t.gtx.digit = false ∧
    (∀ c, t.stats.get c = 0) ∧ t.report = Report.empty

/-- R50: the state the machine starts in holds the values R50 states. -/
def Obligations.StartStateHoldsTheStatedValues : Prop :=
  let t := State.reset
  t.crcReg = 0xFFFF ∧ t.sumReg = 0x00 ∧
  t.ftx.stage = [] ∧ t.ftx.q = [] ∧ t.ftx.pos = 0 ∧ t.ftx.esc = false ∧ t.ftx.ckv = false ∧
  t.frx = { mode := .hunt, buf := [], esc := false } ∧
  t.grx = { mode := .idle, buf := [], esc := false, sum := 0, rck := 0, digit := false } ∧
  t.gtx.stage = [] ∧ t.gtx.q = [] ∧ t.gtx.mode = .idle ∧ t.gtx.idx = 0 ∧ t.gtx.esc = false ∧ t.gtx.digit = false ∧
  ∀ c, t.stats.get c = 0

/-- R261, R262: a teardown, the words 0x0100 and 0x0200, resets its own link, counters included, raises nothing and leaves
all else alone. That it also leaves `ftx_ck` and `gtx_ck`, which R261 and R262 do not name, is the model's choice (log
entry 8). -/
def Obligations.TeardownResetsOneLink : Prop :=
  decode (.word 0x0100) = .ok .fetTeardown ∧ decode (.word 0x0200) = .ok .rspTeardown ∧
  ∀ s : State,
    exec .fetTeardown s = .next { s with
      ftx := { s.ftx with stage := [], q := [], pos := 0, esc := false, ckv := false }
      frx := { mode := .hunt, buf := [], esc := false }
      stats := { s.stats with fetRxFrames := 0, fetRxBytes := 0, fetTxFrames := 0, fetTxBytes := 0,
                              fetDiscFrames := 0, fetDiscBytes := 0 }
      report := Report.empty } ∧
    exec .rspTeardown s = .next { s with
      gtx := { s.gtx with stage := [], q := [], mode := .idle, idx := 0, esc := false, digit := false }
      grx := { mode := .idle, buf := [], esc := false, sum := 0, rck := 0, digit := false }
      stats := { s.stats with rspRxFrames := 0, rspRxBytes := 0, rspTxFrames := 0, rspTxBytes := 0,
                              rspDiscFrames := 0, rspDiscBytes := 0, rspAcks := 0, rspNaks := 0 }
      report := Report.empty }

/-- R264: `STAT.READ i`, the word 0x0300 + `i`, reports the counter of index `i` in R41's order and changes no state; an
index above 13 is refused. -/
def Obligations.StatReadReportsTheIndexedCounter : Prop :=
  ∀ (s : State) (i : Byte),
    let a := s.stats
    (i.toNat ≤ 13 → decode (.word (0x0300 + i.setWidth 16)) = .ok (.statRead i)) ∧
    (∀ n, [a.fetRxFrames, a.fetRxBytes, a.fetTxFrames, a.fetTxBytes, a.fetDiscFrames, a.fetDiscBytes,
        a.rspRxFrames, a.rspRxBytes, a.rspTxFrames, a.rspTxBytes, a.rspDiscFrames, a.rspDiscBytes,
        a.rspAcks, a.rspNaks][i.toNat]? = some n →
      exec (.statRead i) s = .next { s with report := { result := .count n, event := none } }) ∧
    (13 < i.toNat → exec (.statRead i) s = .refused (.reservedCounter i) ∧
      ∀ rest, step { s with stim := .word (0x0300 + i.setWidth 16) :: rest } = .refused (.reservedCounter i))

/-- R263 (e) (the spec's derivation): the two teardowns and the two `INIT`s, in any order, leave what `SYS.RESET` leaves,
as far as any later operation can observe. -/
def Obligations.SysResetIsTheTeardownsAndInits : Prop :=
  ∀ l : List Instr, l.Perm [.fetTeardown, .rspTeardown, .crcInit, .sumInit] → ∀ s : State,
    ∃ t rs u, runAll l s = some (t, rs) ∧ exec .sysReset s = .next u ∧ t.observable = u.observable

/-! ### Errors and events -/

/-- R300: whatever operation raises an error of count `n`, the discard counters of its link move by one frame and `n`
bytes, `n` being the count of assembled bytes, the receiver's working registers take their reset values, nothing is
delivered or transmitted, and all else stays. -/
def Obligations.ErrorEntryResynchronisesOneReceiver : Prop :=
  ∀ (i : Instr) (s t : State) (e : Err) (n : Nat), exec i s = .next t → t.report.event = some (.err e n) →
    (e.code ≤ 4 → n = s.frx.cnt ∧ t = { s with
      frx := { mode := .hunt, buf := [], esc := false }
      stats := { s.stats with
        fetDiscFrames := s.stats.fetDiscFrames + 1, fetDiscBytes := s.stats.fetDiscBytes + n }
      report := { result := .nothing, event := some (.err e n) } }) ∧
    (5 ≤ e.code → n = s.grx.cnt ∧ t = { s with
      grx := { mode := .idle, buf := [], esc := false, sum := 0, rck := 0, digit := false }
      stats := { s.stats with
        rspDiscFrames := s.stats.rspDiscFrames + 1, rspDiscBytes := s.stats.rspDiscBytes + n }
      report := { result := .nothing, event := some (.err e n) } })

/-- R291: each of the seven errors is raised exactly on its condition, with its `info`, by `FRX.BYTE` or `GRX.BYTE` or by a
wire-byte row (that a row is its byte's reception is the model's choice, log entry 2). -/
def Obligations.ErrorsAreRaisedExactlyOnTheirConditions : Prop :=
  ∀ (i : Instr) (s : State) (n : Nat),
    let raises : Err → Prop := fun e => ∃ t, exec i s = .next t ∧ t.report.event = some (.err e n)
    (Err.fetCksum.code = 1 ∧ Err.fetOverflow.code = 2 ∧ Err.fetShort.code = 3 ∧ Err.fetAbort.code = 4 ∧
      Err.rspCksum.code = 5 ∧ Err.rspOverflow.code = 6 ∧ Err.rspNonhex.code = 7) ∧
    (raises .fetCksum ↔ fetWireByte i = some 0x7E ∧ s.frx.mode = .assemble ∧ s.frx.esc = false ∧ n = s.frx.cnt ∧
      ∃ p lo hi, s.frx.buf = p ++ [lo, hi] ∧ ¬(lo8 (crc16 p) = lo ∧ hi8 (crc16 p) = hi)) ∧
    (raises .fetOverflow ↔ ∃ b, fetWireByte i = some b ∧ s.frx.mode = .assemble ∧ b ≠ 0x7E ∧
      (s.frx.esc = true ∨ b ≠ 0x7D) ∧ s.frx.cnt = s.params.fetRxCap ∧ n = s.params.fetRxCap) ∧
    (raises .fetShort ↔ fetWireByte i = some 0x7E ∧ s.frx.mode = .assemble ∧ s.frx.esc = false ∧ s.frx.cnt = 1 ∧
      n = 1) ∧
    (raises .fetAbort ↔ fetWireByte i = some 0x7E ∧ s.frx.mode = .assemble ∧ s.frx.esc = true ∧ n = s.frx.cnt) ∧
    (raises .rspCksum ↔ ∃ b d, rspWireByte i = some b ∧ s.grx.mode = .cksum ∧ s.grx.digit = true ∧
      hexval b = some d ∧ s.grx.sum ≠ s.grx.rck ||| d ∧ n = s.grx.cnt) ∧
    (raises .rspOverflow ↔ ∃ b, rspWireByte i = some b ∧ s.grx.mode = .payload ∧ b ≠ 0x23 ∧ b ≠ 0x7D ∧
      s.grx.cnt = s.params.rspRxCap ∧ n = s.params.rspRxCap) ∧
    (raises .rspNonhex ↔ ∃ b, rspWireByte i = some b ∧ s.grx.mode = .cksum ∧ hexval b = none ∧ n = s.grx.cnt)

/-- R292, R305: every event comes from its own unit. The units `CRC` and `SUM` and the system operations raise none, and a
transmitter raises its retirement alone. -/
def Obligations.EventsComeFromTheirOwnUnit : Prop :=
  ∀ (i : Instr) (s t : State) (ev : Event), exec i s = .next t → t.report.event = some ev →
    (unitOf i = .frx ∧ ((∃ p, ev = .deliver .frx p) ∨ ∃ e n, ev = .err e n ∧ e.code ≤ 4)) ∨
    (unitOf i = .grx ∧ ((∃ p, ev = .deliver .grx p) ∨ ev = .ack ∨ ev = .nak ∨ ∃ e n, ev = .err e n ∧ 5 ≤ e.code)) ∨
    (i = .ftxStep true ∧ ev = .ftxRetired) ∨ (i = .gtxStep true ∧ ev = .gtxRetired)

/-! ### The whole block -/

/-- R25, R27, R29, R31 (the spec's derivations) with the ranges of R24 to R30: a step from a state that meets the
invariants answers a state that meets them. -/
def Obligations.StepKeepsTheUnitInvariants : Prop :=
  ∀ s t : State, s.Ok → step s = .next t → t.Ok

/-- R25, R27, R29, R31 (the spec's derivations): the state after reset meets the invariants, for whatever parameters
R7 allows. -/
def Obligations.StartStateMeetsTheUnitInvariants : Prop :=
  State.reset.Ok ∧ ∀ p : Params, p.Ok → (State.resetWith p).Ok

/-- R67, R313, and 93 U14: from a state that meets the invariants no step faults, and every well-formed operation runs to a
next state. -/
def Obligations.EveryOperationRunsInEveryOkState : Prop :=
  ∀ s : State, s.Ok →
    (∀ i : Instr, i.WellFormed → ∃ t, exec i s = .next t) ∧ ∀ f, step s ≠ .fault f

/-- R70 item 2, R316: operations of two different units commute; either order gives the same state, and each operation
reports the same. -/
def Obligations.OperationsOfDifferentUnitsCommute : Prop :=
  ∀ (i j : Instr) (s a b : State), unitOf i ≠ .sys → unitOf j ≠ .sys → unitOf i ≠ unitOf j →
    exec i s = .next a → exec j a = .next b →
    ∃ c d, exec j s = .next c ∧ exec i c = .next d ∧ d.silent = b.silent ∧ c.report = b.report ∧ d.report = a.report

/-- R20, R70, R316, R263 (a), (b): an operation other than `SYS.RESET` changes no other unit's state and no other unit's
counters; a teardown touches its own link alone. No operation changes the parameters or the stimuli still to come (the
model's own fields, log entries 1 and 5). -/
def Obligations.AnOperationTouchesOnlyItsUnit : Prop :=
  ∀ (i : Instr) (s t : State), exec i s = .next t → t.params = s.params ∧ t.stim = s.stim ∧ (i ≠ .sysReset →
    (unitOf i ≠ .crc → t.crcReg = s.crcReg) ∧ (unitOf i ≠ .sum → t.sumReg = s.sumReg) ∧
    (unitOf i ≠ .ftx → i ≠ .fetTeardown → t.ftx = s.ftx) ∧ (unitOf i ≠ .frx → i ≠ .fetTeardown → t.frx = s.frx) ∧
    (unitOf i ≠ .grx → i ≠ .rspTeardown → t.grx = s.grx) ∧ (unitOf i ≠ .gtx → i ≠ .rspTeardown → t.gtx = s.gtx) ∧
    ∀ c, counterUnit c ≠ unitOf i →
      (i = .fetTeardown → counterUnit c = .grx ∨ counterUnit c = .gtx) →
      (i = .rspTeardown → counterUnit c = .frx ∨ counterUnit c = .ftx) → t.stats.get c = s.stats.get c)

/-- R43: no operation but `STAT.READ` reads a counter. From two states that differ in the counters alone it answers states
that differ in the counters alone, with the same report. -/
def Obligations.CountersAreInvisibleToTheProtocol : Prop :=
  ∀ (i : Instr) (s : State) (a : Stats), (∀ k, i ≠ .statRead k) →
    (∀ t, exec i s = .next t → ∃ a', exec i { s with stats := a } = .next { t with stats := a' }) ∧
    ∀ f, exec i s = .fault f → exec i { s with stats := a } = .fault f

/-- R41, R45: a counter never decreases but by `SYS.RESET` and by the teardown of its own link. -/
def Obligations.CountersOnlyGrow : Prop :=
  ∀ (i : Instr) (s t : State) (c : Counter), exec i s = .next t → i ≠ .sysReset →
    (i = .fetTeardown → counterUnit c = .grx ∨ counterUnit c = .gtx) →
    (i = .rspTeardown → counterUnit c = .frx ∨ counterUnit c = .ftx) → s.stats.get c ≤ t.stats.get c

/-- R69, R71, R75: short of reset and teardown a queue only gains a frame at its tail by an enqueue, or loses its head in
the step that emits the head's last wire byte; no queued frame is ever mutated or reordered. -/
def Obligations.QueuesAreFifoAndImmutable : Prop :=
  ∀ (i : Instr) (s t : State), exec i s = .next t → i ≠ .sysReset →
    (i ≠ .fetTeardown →
      t.ftx.q = s.ftx.q ∨ (i = .ftxEnq ∧ t.ftx.q = s.ftx.q ++ [⟨s.ftx.stage⟩]) ∨
      (i = .ftxStep true ∧ ∃ f, s.ftx.q = f :: t.ftx.q ∧ s.ftx.pos = f.len + 3 ∧
        t.report = { result := .wire 0x7E, event := some .ftxRetired })) ∧
    (i ≠ .rspTeardown →
      t.gtx.q = s.gtx.q ∨ (i = .gtxEnqw ∧ t.gtx.q = s.gtx.q ++ [⟨true, s.gtx.stage⟩]) ∨
      (∃ b, i = .gtxEnqu b ∧ t.gtx.q = s.gtx.q ++ [⟨false, [b]⟩]) ∨
      (i = .gtxStep true ∧ ∃ f b, s.gtx.q = f :: t.gtx.q ∧
        ((s.gtx.mode = .idle ∧ f.wrapped = false) ∨ (s.gtx.mode = .ck ∧ s.gtx.digit = true)) ∧
        t.report = { result := .wire b, event := some .gtxRetired }))

/-- R33: in every state `ftx_want_write` and `gtx_want_write` say that the queue is not empty. An accepted enqueue on an
empty queue raises the output; the step that retires the only queued frame lowers it, and so do reset and a teardown of the
link. Nothing but an enqueue raises it, and nothing but a retirement, reset or teardown lowers it. -/
def Obligations.WantWriteFollowsTheQueue : Prop :=
  ∀ s : State,
    (s.ftxWantWrite = true ↔ s.ftx.q ≠ []) ∧ (s.gtxWantWrite = true ↔ s.gtx.q ≠ []) ∧
    (s.ftx.q = [] → s.params.fetTxqDepth ≠ some 0 → s.ftxWantWrite = false ∧
      ∃ t, exec .ftxEnq s = .next t ∧ t.ftxWantWrite = true) ∧
    (s.gtx.q = [] → s.params.rspTxqDepth ≠ some 0 → s.gtxWantWrite = false ∧
      (∃ t, exec .gtxEnqw s = .next t ∧ t.gtxWantWrite = true) ∧
      ∀ b, ∃ t, exec (.gtxEnqu b) s = .next t ∧ t.gtxWantWrite = true) ∧
    (∀ f, s.ftx.q = [f] → s.ftx.pos = f.len + 3 → s.ftxWantWrite = true ∧
      ∃ t, exec (.ftxStep true) s = .next t ∧ t.report.event = some .ftxRetired ∧ t.ftxWantWrite = false) ∧
    (∀ f, s.gtx.q = [f] →
      (s.gtx.mode = .idle ∧ f.wrapped = false ∧ f.len = 1) ∨ (s.gtx.mode = .ck ∧ s.gtx.digit = true) →
      s.gtxWantWrite = true ∧
      ∃ t, exec (.gtxStep true) s = .next t ∧ t.report.event = some .gtxRetired ∧ t.gtxWantWrite = false) ∧
    (∃ t, exec .sysReset s = .next t ∧ t.ftxWantWrite = false ∧ t.gtxWantWrite = false) ∧
    (∃ t, exec .fetTeardown s = .next t ∧ t.ftxWantWrite = false) ∧
    (∃ t, exec .rspTeardown s = .next t ∧ t.gtxWantWrite = false) ∧
    ∀ (i : Instr) (t : State), exec i s = .next t →
      (s.ftxWantWrite = false → t.ftxWantWrite = true → i = .ftxEnq) ∧
      (s.ftxWantWrite = true → t.ftxWantWrite = false →
        t.report.event = some .ftxRetired ∨ i = .fetTeardown ∨ i = .sysReset) ∧
      (s.gtxWantWrite = false → t.gtxWantWrite = true → i = .gtxEnqw ∨ ∃ b, i = .gtxEnqu b) ∧
      (s.gtxWantWrite = true → t.gtxWantWrite = false →
        t.report.event = some .gtxRetired ∨ i = .rspTeardown ∨ i = .sysReset)

/-- R33, R69, R71: a link is in flight from the first byte of a frame to its retirement: an accepted transmit step leaves it
in flight unless it retires the frame; reset and teardown end it; nothing else changes it. -/
def Obligations.InflightLastsFromFirstByteToRetirement : Prop :=
  ∀ (i : Instr) (s t : State), s.Ok → exec i s = .next t →
    (i = .ftxStep true → s.ftx.q ≠ [] → t.ftxInflight = (t.report.event != some .ftxRetired)) ∧
    (i = .gtxStep true → s.gtx.q ≠ [] → t.gtxInflight = (t.report.event != some .gtxRetired)) ∧
    (i = .sysReset ∨ i = .fetTeardown → t.ftxInflight = false) ∧
    (i = .sysReset ∨ i = .rspTeardown → t.gtxInflight = false) ∧
    (i ≠ .ftxStep true → i ≠ .sysReset → i ≠ .fetTeardown → t.ftxInflight = s.ftxInflight) ∧
    (i ≠ .gtxStep true → i ≠ .sysReset → i ≠ .rspTeardown → t.gtxInflight = s.gtxInflight)
end

