-- ==== Sys2Proof/Laws/Bits.lean ====
section
/-! SUPPORT. The small lemmas of the bit fields, the hex digits and the checksum functions. -/

namespace Sys2Proof.Machine

/-- The low byte of a half built from two bytes. -/
@[simp] theorem lo8_half (lo hi : Byte) : lo8 (half lo hi) = lo := by
  apply BitVec.eq_of_getLsbD_eq
  intro i hi'
  have : i < 16 := by omega
  simp [lo8, half, hi', this]

/-- The high byte of a half built from two bytes. -/
@[simp] theorem hi8_half (lo hi : Byte) : hi8 (half lo hi) = hi := by
  apply BitVec.eq_of_getLsbD_eq
  intro i hi'
  have h2 : 8 + i < 16 := by omega
  simp [hi8, half, hi', h2]

/-- A half is built from its own two bytes. -/
@[simp] theorem half_lo8_hi8 (v : Half) : half (lo8 v) (hi8 v) = v := by
  apply BitVec.eq_of_getLsbD_eq
  intro i hi'
  by_cases h : i < 8
  · simp [half, lo8, h, hi']
  · simp [half, lo8, hi8, h, hi', show i - 8 < 8 by omega, show 8 + (i - 8) = i by omega]

/-- The code of a stimulus word (R104). -/
@[simp] theorem codeOf_stimulusWord (c d : Byte) : codeOf (stimulusWord c d) = c := by
  simp [codeOf, stimulusWord]

/-- The operand byte of a stimulus word (R104). -/
@[simp] theorem dataOf_stimulusWord (c d : Byte) : dataOf (stimulusWord c d) = d := by
  simp [dataOf, stimulusWord]

/-- The `rdy` bit is read back from the byte it is written as. -/
@[simp] theorem rdyOf_ofRdy (r : Bool) : rdyOf (ofRdy r) = r := by
  cases r <;> rfl

/-- The running register over a concatenation (R127). -/
theorem crcFrom_append (c : Half) (p q : List Byte) : crcFrom c (p ++ q) = crcFrom (crcFrom c p) q := by
  simp [crcFrom]

/-- The running register over one more byte. -/
@[simp] theorem crcFrom_cons (c : Half) (b : Byte) (p : List Byte) : crcFrom c (b :: p) = crcFrom (crcStep c b) p := rfl

/-- The running register over no byte. -/
@[simp] theorem crcFrom_nil (c : Half) : crcFrom c [] = c := rfl

/-- The sum over one more byte at the end (R209). -/
theorem sum8_snoc (p : List Byte) (b : Byte) : sum8 (p ++ [b]) = sumStep (sum8 p) b := by
  simp [sum8]

end Sys2Proof.Machine
end

