-- ==== Sys2Proof/Laws/State.lean ====
section
/-! SUPPORT. One lemma for each field of `State` under each update the operations are made of. -/

namespace Sys2Proof.Machine

@[simp] theorem quiet_params (s : State) : s.quiet.params = s.params := rfl
@[simp] theorem quiet_crcReg (s : State) : s.quiet.crcReg = s.crcReg := rfl
@[simp] theorem quiet_sumReg (s : State) : s.quiet.sumReg = s.sumReg := rfl
@[simp] theorem quiet_ftx (s : State) : s.quiet.ftx = s.ftx := rfl
@[simp] theorem quiet_frx (s : State) : s.quiet.frx = s.frx := rfl
@[simp] theorem quiet_grx (s : State) : s.quiet.grx = s.grx := rfl
@[simp] theorem quiet_gtx (s : State) : s.quiet.gtx = s.gtx := rfl
@[simp] theorem quiet_stats (s : State) : s.quiet.stats = s.stats := rfl
@[simp] theorem quiet_stim (s : State) : s.quiet.stim = s.stim := rfl
@[simp] theorem quiet_report (s : State) : s.quiet.report = Report.empty := rfl

@[simp] theorem answer_params (s : State) (r : Result) : (s.answer r).params = s.params := rfl
@[simp] theorem answer_crcReg (s : State) (r : Result) : (s.answer r).crcReg = s.crcReg := rfl
@[simp] theorem answer_sumReg (s : State) (r : Result) : (s.answer r).sumReg = s.sumReg := rfl
@[simp] theorem answer_ftx (s : State) (r : Result) : (s.answer r).ftx = s.ftx := rfl
@[simp] theorem answer_frx (s : State) (r : Result) : (s.answer r).frx = s.frx := rfl
@[simp] theorem answer_grx (s : State) (r : Result) : (s.answer r).grx = s.grx := rfl
@[simp] theorem answer_gtx (s : State) (r : Result) : (s.answer r).gtx = s.gtx := rfl
@[simp] theorem answer_stats (s : State) (r : Result) : (s.answer r).stats = s.stats := rfl
@[simp] theorem answer_stim (s : State) (r : Result) : (s.answer r).stim = s.stim := rfl
@[simp] theorem answer_report (s : State) (r : Result) : (s.answer r).report = { s.report with result := r } := rfl

@[simp] theorem emit_params (s : State) (b : Byte) : (s.emit b).params = s.params := rfl
@[simp] theorem emit_crcReg (s : State) (b : Byte) : (s.emit b).crcReg = s.crcReg := rfl
@[simp] theorem emit_sumReg (s : State) (b : Byte) : (s.emit b).sumReg = s.sumReg := rfl
@[simp] theorem emit_ftx (s : State) (b : Byte) : (s.emit b).ftx = s.ftx := rfl
@[simp] theorem emit_frx (s : State) (b : Byte) : (s.emit b).frx = s.frx := rfl
@[simp] theorem emit_grx (s : State) (b : Byte) : (s.emit b).grx = s.grx := rfl
@[simp] theorem emit_gtx (s : State) (b : Byte) : (s.emit b).gtx = s.gtx := rfl
@[simp] theorem emit_stats (s : State) (b : Byte) : (s.emit b).stats = s.stats := rfl
@[simp] theorem emit_stim (s : State) (b : Byte) : (s.emit b).stim = s.stim := rfl
@[simp] theorem emit_report (s : State) (b : Byte) : (s.emit b).report = { s.report with result := .wire b } := rfl

@[simp] theorem notify_params (s : State) (e : Event) : (s.notify e).params = s.params := rfl
@[simp] theorem notify_crcReg (s : State) (e : Event) : (s.notify e).crcReg = s.crcReg := rfl
@[simp] theorem notify_sumReg (s : State) (e : Event) : (s.notify e).sumReg = s.sumReg := rfl
@[simp] theorem notify_ftx (s : State) (e : Event) : (s.notify e).ftx = s.ftx := rfl
@[simp] theorem notify_frx (s : State) (e : Event) : (s.notify e).frx = s.frx := rfl
@[simp] theorem notify_grx (s : State) (e : Event) : (s.notify e).grx = s.grx := rfl
@[simp] theorem notify_gtx (s : State) (e : Event) : (s.notify e).gtx = s.gtx := rfl
@[simp] theorem notify_stats (s : State) (e : Event) : (s.notify e).stats = s.stats := rfl
@[simp] theorem notify_stim (s : State) (e : Event) : (s.notify e).stim = s.stim := rfl
@[simp] theorem notify_report (s : State) (e : Event) : (s.notify e).report = { s.report with event := some e } := rfl

@[simp] theorem deliver_params (s : State) (u : Receiver) (p : List Byte) : (s.deliver u p).params = s.params := rfl
@[simp] theorem deliver_crcReg (s : State) (u : Receiver) (p : List Byte) : (s.deliver u p).crcReg = s.crcReg := rfl
@[simp] theorem deliver_sumReg (s : State) (u : Receiver) (p : List Byte) : (s.deliver u p).sumReg = s.sumReg := rfl
@[simp] theorem deliver_ftx (s : State) (u : Receiver) (p : List Byte) : (s.deliver u p).ftx = s.ftx := rfl
@[simp] theorem deliver_frx (s : State) (u : Receiver) (p : List Byte) : (s.deliver u p).frx = s.frx := rfl
@[simp] theorem deliver_grx (s : State) (u : Receiver) (p : List Byte) : (s.deliver u p).grx = s.grx := rfl
@[simp] theorem deliver_gtx (s : State) (u : Receiver) (p : List Byte) : (s.deliver u p).gtx = s.gtx := rfl
@[simp] theorem deliver_stats (s : State) (u : Receiver) (p : List Byte) : (s.deliver u p).stats = s.stats := rfl
@[simp] theorem deliver_stim (s : State) (u : Receiver) (p : List Byte) : (s.deliver u p).stim = s.stim := rfl
@[simp] theorem deliver_report (s : State) (u : Receiver) (p : List Byte) : (s.deliver u p).report = { s.report with event := some (.deliver u p) } := rfl

@[simp] theorem count_params (s : State) (c : Counter) (k : Nat) : (s.count c k).params = s.params := rfl
@[simp] theorem count_crcReg (s : State) (c : Counter) (k : Nat) : (s.count c k).crcReg = s.crcReg := rfl
@[simp] theorem count_sumReg (s : State) (c : Counter) (k : Nat) : (s.count c k).sumReg = s.sumReg := rfl
@[simp] theorem count_ftx (s : State) (c : Counter) (k : Nat) : (s.count c k).ftx = s.ftx := rfl
@[simp] theorem count_frx (s : State) (c : Counter) (k : Nat) : (s.count c k).frx = s.frx := rfl
@[simp] theorem count_grx (s : State) (c : Counter) (k : Nat) : (s.count c k).grx = s.grx := rfl
@[simp] theorem count_gtx (s : State) (c : Counter) (k : Nat) : (s.count c k).gtx = s.gtx := rfl
@[simp] theorem count_stats (s : State) (c : Counter) (k : Nat) : (s.count c k).stats = s.stats.bump k c := rfl
@[simp] theorem count_stim (s : State) (c : Counter) (k : Nat) : (s.count c k).stim = s.stim := rfl
@[simp] theorem count_report (s : State) (c : Counter) (k : Nat) : (s.count c k).report = s.report := rfl

@[simp] theorem countFrame_params (s : State) (f b : Counter) (n : Nat) : (s.countFrame f b n).params = s.params := rfl
@[simp] theorem countFrame_crcReg (s : State) (f b : Counter) (n : Nat) : (s.countFrame f b n).crcReg = s.crcReg := rfl
@[simp] theorem countFrame_sumReg (s : State) (f b : Counter) (n : Nat) : (s.countFrame f b n).sumReg = s.sumReg := rfl
@[simp] theorem countFrame_ftx (s : State) (f b : Counter) (n : Nat) : (s.countFrame f b n).ftx = s.ftx := rfl
@[simp] theorem countFrame_frx (s : State) (f b : Counter) (n : Nat) : (s.countFrame f b n).frx = s.frx := rfl
@[simp] theorem countFrame_grx (s : State) (f b : Counter) (n : Nat) : (s.countFrame f b n).grx = s.grx := rfl
@[simp] theorem countFrame_gtx (s : State) (f b : Counter) (n : Nat) : (s.countFrame f b n).gtx = s.gtx := rfl
@[simp] theorem countFrame_stats (s : State) (f b : Counter) (n : Nat) : (s.countFrame f b n).stats = (s.stats.bump 1 f).bump n b := rfl
@[simp] theorem countFrame_stim (s : State) (f b : Counter) (n : Nat) : (s.countFrame f b n).stim = s.stim := rfl
@[simp] theorem countFrame_report (s : State) (f b : Counter) (n : Nat) : (s.countFrame f b n).report = s.report := rfl

@[simp] theorem give_params (s : State) (x : Stim) : (s.give x).params = s.params := rfl
@[simp] theorem give_crcReg (s : State) (x : Stim) : (s.give x).crcReg = s.crcReg := rfl
@[simp] theorem give_sumReg (s : State) (x : Stim) : (s.give x).sumReg = s.sumReg := rfl
@[simp] theorem give_ftx (s : State) (x : Stim) : (s.give x).ftx = s.ftx := rfl
@[simp] theorem give_frx (s : State) (x : Stim) : (s.give x).frx = s.frx := rfl
@[simp] theorem give_grx (s : State) (x : Stim) : (s.give x).grx = s.grx := rfl
@[simp] theorem give_gtx (s : State) (x : Stim) : (s.give x).gtx = s.gtx := rfl
@[simp] theorem give_stats (s : State) (x : Stim) : (s.give x).stats = s.stats := rfl
@[simp] theorem give_stim (s : State) (x : Stim) : (s.give x).stim = x :: s.stim := rfl
@[simp] theorem give_report (s : State) (x : Stim) : (s.give x).report = s.report := rfl

@[simp] theorem silent_params (s : State) : s.silent.params = s.params := rfl
@[simp] theorem silent_crcReg (s : State) : s.silent.crcReg = s.crcReg := rfl
@[simp] theorem silent_sumReg (s : State) : s.silent.sumReg = s.sumReg := rfl
@[simp] theorem silent_ftx (s : State) : s.silent.ftx = s.ftx := rfl
@[simp] theorem silent_frx (s : State) : s.silent.frx = s.frx := rfl
@[simp] theorem silent_grx (s : State) : s.silent.grx = s.grx := rfl
@[simp] theorem silent_gtx (s : State) : s.silent.gtx = s.gtx := rfl
@[simp] theorem silent_stats (s : State) : s.silent.stats = s.stats := rfl
@[simp] theorem silent_stim (s : State) : s.silent.stim = s.stim := rfl
@[simp] theorem silent_report (s : State) : s.silent.report = Report.empty := rfl

@[simp] theorem sysReset_params (s : State) : s.sysReset.params = s.params := rfl
@[simp] theorem sysReset_crcReg (s : State) : s.sysReset.crcReg = 0xFFFF := rfl
@[simp] theorem sysReset_sumReg (s : State) : s.sysReset.sumReg = 0 := rfl
@[simp] theorem sysReset_ftx (s : State) : s.sysReset.ftx = Ftx.reset := rfl
@[simp] theorem sysReset_frx (s : State) : s.sysReset.frx = Frx.reset := rfl
@[simp] theorem sysReset_grx (s : State) : s.sysReset.grx = Grx.reset := rfl
@[simp] theorem sysReset_gtx (s : State) : s.sysReset.gtx = Gtx.reset := rfl
@[simp] theorem sysReset_stats (s : State) : s.sysReset.stats = Stats.zero := rfl
@[simp] theorem sysReset_stim (s : State) : s.sysReset.stim = s.stim := rfl
@[simp] theorem sysReset_report (s : State) : s.sysReset.report = Report.empty := rfl

@[simp] theorem teardownFet_params (s : State) : s.teardownFet.params = s.params := rfl
@[simp] theorem teardownFet_crcReg (s : State) : s.teardownFet.crcReg = s.crcReg := rfl
@[simp] theorem teardownFet_sumReg (s : State) : s.teardownFet.sumReg = s.sumReg := rfl
@[simp] theorem teardownFet_ftx (s : State) : s.teardownFet.ftx = { Ftx.reset with ck := s.ftx.ck } := rfl
@[simp] theorem teardownFet_frx (s : State) : s.teardownFet.frx = Frx.reset := rfl
@[simp] theorem teardownFet_grx (s : State) : s.teardownFet.grx = s.grx := rfl
@[simp] theorem teardownFet_gtx (s : State) : s.teardownFet.gtx = s.gtx := rfl
@[simp] theorem teardownFet_stim (s : State) : s.teardownFet.stim = s.stim := rfl
@[simp] theorem teardownFet_report (s : State) : s.teardownFet.report = s.report := rfl

@[simp] theorem teardownRsp_params (s : State) : s.teardownRsp.params = s.params := rfl
@[simp] theorem teardownRsp_crcReg (s : State) : s.teardownRsp.crcReg = s.crcReg := rfl
@[simp] theorem teardownRsp_sumReg (s : State) : s.teardownRsp.sumReg = s.sumReg := rfl
@[simp] theorem teardownRsp_ftx (s : State) : s.teardownRsp.ftx = s.ftx := rfl
@[simp] theorem teardownRsp_frx (s : State) : s.teardownRsp.frx = s.frx := rfl
@[simp] theorem teardownRsp_grx (s : State) : s.teardownRsp.grx = Grx.reset := rfl
@[simp] theorem teardownRsp_gtx (s : State) : s.teardownRsp.gtx = { Gtx.reset with ck := s.gtx.ck } := rfl
@[simp] theorem teardownRsp_stim (s : State) : s.teardownRsp.stim = s.stim := rfl
@[simp] theorem teardownRsp_report (s : State) : s.teardownRsp.report = s.report := rfl

end Sys2Proof.Machine
end

