-- ==== Sys2Proof/Laws/Ops.lean ====
section
/-! SUPPORT. For each shared operation, once, what it can do. -/

namespace Sys2Proof.Machine

/-- A bumped counter grows by `k`; every other counter stays. -/
theorem get_bump (t : Stats) (k : Nat) (c d : Counter) :
    (t.bump k c).get d = if d = c then t.get d + k else t.get d := by
  cases c <;> cases d <;> rfl

/-- A saturating counter of a realisation is a view of the unbounded one: adding and then saturating is the saturating
addition (R46). -/
theorem statView_add (w n k : Nat) : statView w (n + k) = min (statView w n + k) (2 ^ w - 1) := by
  unfold statView; omega

/-- A saturating counter never decreases (R46). -/
theorem statView_mono (w : Nat) {m n : Nat} (h : m ≤ n) : statView w m ≤ statView w n := by
  unfold statView; omega

/-- Error entry on the FET link, whole (R300). -/
theorem raise_fet (s : State) (e : Err) (n : Nat) (h : e.unit = .frx) :
    s.raise e n = { s with
      frx := Frx.reset
      stats := { s.stats with
        fetDiscFrames := s.stats.fetDiscFrames + 1, fetDiscBytes := s.stats.fetDiscBytes + n }
      report := { s.report with event := some (.err e n) } } := by
  simp only [State.raise, h]; rfl

/-- Error entry on the RSP link, whole (R300). -/
theorem raise_rsp (s : State) (e : Err) (n : Nat) (h : e.unit = .grx) :
    s.raise e n = { s with
      grx := Grx.reset
      stats := { s.stats with
        rspDiscFrames := s.stats.rspDiscFrames + 1, rspDiscBytes := s.stats.rspDiscBytes + n }
      report := { s.report with event := some (.err e n) } } := by
  simp only [State.raise, h]; rfl

/-- Storing a FET byte overflows or appends. -/
theorem frxStore_cases (v : Byte) (s : State) :
    (s.frx.cnt = s.params.fetRxCap ∧ frxStore v s = s.raise .fetOverflow s.frx.cnt) ∨
    (s.frx.cnt ≠ s.params.fetRxCap ∧ frxStore v s = { s with frx := { s.frx with buf := s.frx.buf ++ [v] } }) := by
  unfold frxStore; split
  · exact .inl ⟨‹_›, rfl⟩
  · exact .inr ⟨‹_›, rfl⟩

/-- A sentinel in `ASSEMBLE` does one of five things. -/
theorem frxClose_cases (s : State) :
    (s.frx.esc = true ∧ frxClose s = s.raise .fetAbort s.frx.cnt) ∨
    (s.frx.esc = false ∧ s.frx.cnt = 0 ∧ frxClose s = s) ∨
    (s.frx.esc = false ∧ s.frx.cnt = 1 ∧ frxClose s = s.raise .fetShort 1) ∨
    (s.frx.esc = false ∧ 2 ≤ s.frx.cnt ∧ crc16 (frxPayload s.frx.buf) = frxRck s.frx.buf ∧
      frxClose s = ({ s.countFrame .fetRxFrames .fetRxBytes (s.frx.cnt - 2) with
        frx := { s.frx with buf := [] } }).deliver .frx (frxPayload s.frx.buf)) ∨
    (s.frx.esc = false ∧ 2 ≤ s.frx.cnt ∧ crc16 (frxPayload s.frx.buf) ≠ frxRck s.frx.buf ∧
      frxClose s = s.raise .fetCksum s.frx.cnt) := by
  unfold frxClose frxValidate
  split
  · exact .inl ⟨‹_›, rfl⟩
  · have he : s.frx.esc = false := by simpa using ‹¬s.frx.esc = true›
    split
    · exact .inr (.inl ⟨he, ‹_›, rfl⟩)
    · split
      · exact .inr (.inr (.inl ⟨he, ‹_›, rfl⟩))
      · have hc : 2 ≤ s.frx.cnt := by omega
        split
        · exact .inr (.inr (.inr (.inl ⟨he, hc, ‹_›, rfl⟩)))
        · exact .inr (.inr (.inr (.inr ⟨he, hc, ‹_›, rfl⟩)))

/-- A received FET byte opens a frame, is ignored, closes, introduces an escape, or is stored (R170). -/
theorem frxReceive_cases (b : Byte) (s : State) :
    (s.frx.mode = .hunt ∧ b = Config.fetSentinel ∧
      frxReceive b s = { s with frx := { mode := .assemble, buf := [], esc := false } }) ∨
    (s.frx.mode = .hunt ∧ b ≠ Config.fetSentinel ∧ frxReceive b s = s) ∨
    (s.frx.mode = .assemble ∧ b = Config.fetSentinel ∧ frxReceive b s = frxClose s) ∨
    (s.frx.mode = .assemble ∧ b ≠ Config.fetSentinel ∧ s.frx.esc = true ∧
      frxReceive b s = frxStore (b ^^^ Config.escXor) { s with frx := { s.frx with esc := false } }) ∨
    (s.frx.mode = .assemble ∧ b = Config.fetEscape ∧ s.frx.esc = false ∧
      frxReceive b s = { s with frx := { s.frx with esc := true } }) ∨
    (s.frx.mode = .assemble ∧ b ≠ Config.fetSentinel ∧ b ≠ Config.fetEscape ∧ s.frx.esc = false ∧
      frxReceive b s = frxStore b s) := by
  unfold frxReceive
  cases hm : s.frx.mode
  · by_cases h : b = Config.fetSentinel <;> simp [h]
  · by_cases h : b = Config.fetSentinel
    · simp [h]
    · cases he : s.frx.esc
      · by_cases h2 : b = Config.fetEscape
        · subst h2; simp [h]
        · simp [h, h2]
      · simp [h]

/-- A byte in `IDLE` does one of four things (R202 to R205). -/
theorem grxIdle_cases (b : Byte) (s : State) :
    (b = Config.rspStart ∧
      grxIdle b s = { s with grx := { s.grx with mode := .payload, buf := [], sum := 0, esc := false } }) ∨
    (b = Config.rspAck ∧ grxIdle b s = (s.count .rspAcks 1).notify .ack) ∨
    (b = Config.rspNak ∧ grxIdle b s = (s.count .rspNaks 1).notify .nak) ∨
    (b ≠ Config.rspStart ∧ b ≠ Config.rspAck ∧ b ≠ Config.rspNak ∧ grxIdle b s = s) := by
  unfold grxIdle
  split
  · exact .inl ⟨‹_›, rfl⟩
  · split
    · exact .inr (.inl ⟨‹_›, rfl⟩)
    · split
      · exact .inr (.inr (.inl ⟨‹_›, rfl⟩))
      · exact .inr (.inr (.inr ⟨‹_›, ‹_›, ‹_›, rfl⟩))

/-- Storing an RSP byte overflows or appends and sums (R209, R210). -/
theorem grxStore_cases (v : Byte) (s : State) :
    (s.grx.cnt = s.params.rspRxCap ∧ grxStore v s = s.raise .rspOverflow s.grx.cnt) ∨
    (s.grx.cnt ≠ s.params.rspRxCap ∧
      grxStore v s = { s with grx := { s.grx with buf := s.grx.buf ++ [v], sum := sumStep s.grx.sum v } }) := by
  unfold grxStore; split
  · exact .inl ⟨‹_›, rfl⟩
  · exact .inr ⟨‹_›, rfl⟩

/-- A byte in `PAYLOAD` ends it, introduces an escape, or is data (R200). -/
theorem grxPayload_cases (b : Byte) (s : State) :
    (b = Config.rspEnd ∧ grxPayload b s =
      { s with grx := { s.grx with mode := .cksum, esc := false, rck := 0, digit := false } }) ∨
    (b = Config.rspEscape ∧ grxPayload b s = { s with grx := { s.grx with esc := true } }) ∨
    (b ≠ Config.rspEnd ∧ b ≠ Config.rspEscape ∧ s.grx.esc = true ∧
      grxPayload b s = grxStore (b ^^^ Config.escXor) { s with grx := { s.grx with esc := false } }) ∨
    (b ≠ Config.rspEnd ∧ b ≠ Config.rspEscape ∧ s.grx.esc = false ∧ grxPayload b s = grxStore b s) := by
  unfold grxPayload grxData
  split
  · exact .inl ⟨‹_›, rfl⟩
  · split
    · exact .inr (.inl ⟨‹_›, rfl⟩)
    · split
      · exact .inr (.inr (.inl ⟨‹_›, ‹_›, ‹_›, rfl⟩))
      · exact .inr (.inr (.inr ⟨‹_›, ‹_›, by simpa using ‹¬s.grx.esc = true›, rfl⟩))

/-- A byte in `CKSUM` is no digit, the first digit, a right second digit or a wrong one (R211 to R214). -/
theorem grxCksum_cases (b : Byte) (s : State) :
    (hexval b = none ∧ grxCksum b s = s.raise .rspNonhex s.grx.cnt) ∨
    (∃ v, hexval b = some v ∧ s.grx.digit = false ∧
      grxCksum b s = { s with grx := { s.grx with rck := v <<< 4, digit := true } }) ∨
    (∃ v, hexval b = some v ∧ s.grx.digit = true ∧ s.grx.sum = s.grx.rck ||| v ∧
      grxCksum b s = ({ s.countFrame .rspRxFrames .rspRxBytes s.grx.cnt with grx := Grx.reset }).deliver .grx
        s.grx.buf) ∨
    (∃ v, hexval b = some v ∧ s.grx.digit = true ∧ s.grx.sum ≠ s.grx.rck ||| v ∧
      grxCksum b s = s.raise .rspCksum s.grx.cnt) := by
  unfold grxCksum
  cases hv : hexval b with
  | none => exact .inl ⟨rfl, rfl⟩
  | some v =>
    cases hd : s.grx.digit
    · exact .inr (.inl ⟨v, rfl, rfl, by simp⟩)
    · by_cases hs : s.grx.sum = s.grx.rck ||| v
      · exact .inr (.inr (.inl ⟨v, rfl, rfl, hs, by simp [grxVerdict, hs]⟩))
      · exact .inr (.inr (.inr ⟨v, rfl, rfl, hs, by simp [grxVerdict, hs]⟩))

/-- The checksum cache leaves everything but the cache, which it makes valid (R152). -/
theorem ftxCache_eq (f : Frame) (s : State) :
    ftxCache f s = { s with ftx := { s.ftx with
      ck := if s.ftx.ckv then s.ftx.ck else crc16 f.payload, ckv := true } } := by
  unfold ftxCache
  cases h : s.ftx.ckv <;> simp
  rw [← h]

/-- An accepted FET step is `SOF`, `EOF`, a byte's case, or the fault of a position past len+3 (R151). -/
theorem ftxAccepted_cases (f : Frame) (rest : List Frame) (s : State) :
    (s.ftx.pos = 0 ∧ ftxAccepted f rest s = .next (ftxSof s)) ∨
    (s.ftx.pos = f.len + 3 ∧ ftxAccepted f rest s = .next (ftxEof f rest s)) ∨
    (∃ b, ftxByte f.payload s.ftx.ck s.ftx.pos = some b ∧ 1 ≤ s.ftx.pos ∧ s.ftx.pos ≤ f.len + 2 ∧
      ftxAccepted f rest s =
        .next (if s.ftx.esc then ftxEsc2 b s else if fetReserved b then ftxEsc1 s else ftxPlain b s)) ∨
    (f.len + 3 < s.ftx.pos ∧ ftxAccepted f rest s = .fault .ftxPosition) := by
  unfold ftxAccepted
  split
  · exact .inl ⟨‹_›, rfl⟩
  · split
    · exact .inr (.inl ⟨‹_›, rfl⟩)
    · split
      · rename_i b hb
        refine .inr (.inr (.inl ⟨b, hb, by omega, ?_, rfl⟩))
        by_contra hlt
        simp only [Frame.len] at *
        simp [ftxByte, show s.ftx.pos ≠ 0 by omega, show ¬s.ftx.pos ≤ f.payload.length by omega,
          show s.ftx.pos ≠ f.payload.length + 1 by omega, show s.ftx.pos ≠ f.payload.length + 2 by omega] at hb
      · rename_i hb
        refine .inr (.inr (.inr ⟨?_, rfl⟩))
        by_contra hge
        simp only [Frame.len] at *
        unfold ftxByte at hb
        split at hb
        · omega
        · split at hb
          · simp at hb; omega
          · split at hb
            · simp at hb
            · split at hb
              · simp at hb
              · omega

/-- `FTX.STEP` reports `none` and changes nothing, or is an accepted step on the head frame (R151). -/
theorem execFtxStep_cases (r : Bool) (s : State) :
    ((s.ftx.q = [] ∨ r = false) ∧ execFtxStep r s = .next (s.quiet.answer .noByte)) ∨
    (∃ f rest, s.ftx.q = f :: rest ∧ r = true ∧ execFtxStep r s = ftxAccepted f rest (ftxCache f s.quiet)) := by
  unfold execFtxStep
  split
  · exact .inl ⟨.inl ‹_›, rfl⟩
  · cases r
    · exact .inl ⟨.inr rfl, rfl⟩
    · exact .inr ⟨_, _, ‹_›, rfl, rfl⟩

/-- An accepted RSP step is one of the five cases of R234, or the fault of a read past the payload. -/
theorem gtxAccepted_cases (f : TaggedFrame) (rest : List TaggedFrame) (s : State) :
    (s.gtx.mode = .idle ∧ f.wrapped = true ∧ gtxAccepted f rest s = .next (gtxStart f s)) ∨
    (∃ b, s.gtx.mode = .idle ∧ f.wrapped = false ∧ s.memRead (.gtxQ 0) 0 = some b ∧
      gtxAccepted f rest s = .next (gtxBare b rest s)) ∨
    (∃ b, s.gtx.mode = .data ∧ s.memRead (.gtxQ 0) s.gtx.idx = some b ∧
      gtxAccepted f rest s = .next (gtxData f b s)) ∨
    (s.gtx.mode = .ckb ∧ gtxAccepted f rest s = .next (gtxBoundary f s)) ∨
    (s.gtx.mode = .ck ∧ gtxAccepted f rest s = .next (if s.gtx.digit then gtxLow f rest s else gtxHigh s)) ∨
    (s.gtx.mode = .idle ∧ f.wrapped = false ∧ s.memRead (.gtxQ 0) 0 = none ∧
      gtxAccepted f rest s = .fault .gtxIndex) ∨
    (s.gtx.mode = .data ∧ s.memRead (.gtxQ 0) s.gtx.idx = none ∧ gtxAccepted f rest s = .fault .gtxIndex) := by
  unfold gtxAccepted
  cases hm : s.gtx.mode
  · cases hw : f.wrapped
    · cases hr : s.memRead (.gtxQ 0) 0 <;> simp
    · simp
  · cases hr : s.memRead (.gtxQ 0) s.gtx.idx <;> simp
  · simp
  · simp

/-- `GTX.STEP` reports `none` and changes nothing, or is an accepted step on the head frame (R234). -/
theorem execGtxStep_cases (r : Bool) (s : State) :
    ((s.gtx.q = [] ∨ r = false) ∧ execGtxStep r s = .next (s.quiet.answer .noByte)) ∨
    (∃ f rest, s.gtx.q = f :: rest ∧ r = true ∧ execGtxStep r s = gtxAccepted f rest s.quiet) := by
  unfold execGtxStep
  split
  · exact .inl ⟨.inl ‹_›, rfl⟩
  · cases r
    · exact .inl ⟨.inr rfl, rfl⟩
    · exact .inr ⟨_, _, ‹_›, rfl, rfl⟩

/-- `MemRead` on the head frame of the RSP queue reads its payload (R60). -/
theorem memRead_gtx_head (s : State) (f : TaggedFrame) (rest : List TaggedFrame) (h : s.gtx.q = f :: rest) (k : Nat) :
    s.memRead (.gtxQ 0) k = f.payload[k]? := by
  simp [State.memRead, State.bytes, h]

/-- `MemRead` on the head frame of the FET queue reads its payload (R60). -/
theorem memRead_ftx_head (s : State) (f : Frame) (rest : List Frame) (h : s.ftx.q = f :: rest) (k : Nat) :
    s.memRead (.ftxQ 0) k = f.payload[k]? := by
  simp [State.memRead, State.bytes, h]

end Sys2Proof.Machine
end

