-- ==== Sys2Proof/Laws/PerInstr.lean ====
section
/-! SUPPORT. Statements made of every operation as a term: one lemma for each constructor of `Instr`. -/

namespace Sys2Proof.Laws.EncodedCode

open Sys2Proof.Machine

/-- The code byte of the operation's row (R105), or the link of its wire byte (R80 to R90). -/
def rowOf : Instr → Byte ⊕ Receiver
  | .sysReset => .inl 0x00
  | .fetTeardown => .inl 0x01
  | .rspTeardown => .inl 0x02
  | .statRead _ => .inl 0x03
  | .crcInit => .inl 0x10
  | .crcUpd _ => .inl 0x11
  | .crcFin => .inl 0x12
  | .sumInit => .inl 0x20
  | .sumUpd _ => .inl 0x21
  | .sumFin => .inl 0x22
  | .ftxPush _ => .inl 0x30
  | .ftxEnq => .inl 0x31
  | .ftxStep _ => .inl 0x32
  | .frxByte _ => .inl 0x40
  | .grxByte _ => .inl 0x50
  | .gtxPush _ => .inl 0x60
  | .gtxEnqw => .inl 0x61
  | .gtxEnqu _ => .inl 0x62
  | .gtxStep _ => .inl 0x63
  | .fetSentinel => .inr .frx
  | .fetEscape => .inr .frx
  | .fetData _ => .inr .frx
  | .rspStart => .inr .grx
  | .rspEnd => .inr .grx
  | .rspEscape => .inr .grx
  | .rspAck => .inr .grx
  | .rspNak => .inr .grx
  | .rspHexdigit _ => .inr .grx

/-- The operation's encoding carries its row's code, or is a byte on its row's link. -/
def Statement (i : Instr) : Prop :=
  match encode i, rowOf i with
  | .word w, .inl c => codeOf w = c
  | .fetByte _, .inr u => u = .frx
  | .rspByte _, .inr u => u = .grx
  | _, _ => False

theorem sysReset : Statement .sysReset := by simp [Statement, encode, rowOf]
theorem fetTeardown : Statement .fetTeardown := by simp [Statement, encode, rowOf]
theorem rspTeardown : Statement .rspTeardown := by simp [Statement, encode, rowOf]
theorem statRead (i : Byte) : Statement (.statRead i) := by simp [Statement, encode, rowOf]
theorem crcInit : Statement .crcInit := by simp [Statement, encode, rowOf]
theorem crcUpd (b : Byte) : Statement (.crcUpd b) := by simp [Statement, encode, rowOf]
theorem crcFin : Statement .crcFin := by simp [Statement, encode, rowOf]
theorem sumInit : Statement .sumInit := by simp [Statement, encode, rowOf]
theorem sumUpd (b : Byte) : Statement (.sumUpd b) := by simp [Statement, encode, rowOf]
theorem sumFin : Statement .sumFin := by simp [Statement, encode, rowOf]
theorem ftxPush (b : Byte) : Statement (.ftxPush b) := by simp [Statement, encode, rowOf]
theorem ftxEnq : Statement .ftxEnq := by simp [Statement, encode, rowOf]
theorem ftxStep (rdy : Bool) : Statement (.ftxStep rdy) := by simp [Statement, encode, rowOf]
theorem frxByte (b : Byte) : Statement (.frxByte b) := by simp [Statement, encode, rowOf]
theorem grxByte (b : Byte) : Statement (.grxByte b) := by simp [Statement, encode, rowOf]
theorem gtxPush (b : Byte) : Statement (.gtxPush b) := by simp [Statement, encode, rowOf]
theorem gtxEnqw : Statement .gtxEnqw := by simp [Statement, encode, rowOf]
theorem gtxEnqu (b : Byte) : Statement (.gtxEnqu b) := by simp [Statement, encode, rowOf]
theorem gtxStep (rdy : Bool) : Statement (.gtxStep rdy) := by simp [Statement, encode, rowOf]
theorem fetSentinel : Statement .fetSentinel := by simp [Statement, encode, rowOf]
theorem fetEscape : Statement .fetEscape := by simp [Statement, encode, rowOf]
theorem fetData (b : Byte) : Statement (.fetData b) := by simp [Statement, encode, rowOf]
theorem rspStart : Statement .rspStart := by simp [Statement, encode, rowOf]
theorem rspEnd : Statement .rspEnd := by simp [Statement, encode, rowOf]
theorem rspEscape : Statement .rspEscape := by simp [Statement, encode, rowOf]
theorem rspAck : Statement .rspAck := by simp [Statement, encode, rowOf]
theorem rspNak : Statement .rspNak := by simp [Statement, encode, rowOf]
theorem rspHexdigit (b : Byte) : Statement (.rspHexdigit b) := by simp [Statement, encode, rowOf]

end Sys2Proof.Laws.EncodedCode
end

