-- ==== Sys2Proof/Machine/Asm.lean ====
section
/-! DEFINITION. The assembler syntax for traces (R107): one operation a line, a mnemonic and then its operand. -/

namespace Sys2Proof.Machine

/-- What a mnemonic takes as operand. -/
inductive AsmForm where
  /-- No operand. -/
  | bare (i : Instr)
  /-- A byte. -/
  | byte (code : Byte)
  /-- The `rdy` bit; without an operand it is 1 (R107). -/
  | rdy (code : Byte)
  deriving DecidableEq, Repr

/-- The mnemonics of R105, as characters. -/
def asmForm : List Char → Option AsmForm
  | ['S', 'Y', 'S', '.', 'R', 'E', 'S', 'E', 'T'] => some (.bare .sysReset)
  | ['F', 'E', 'T', '.', 'T', 'E', 'A', 'R', 'D', 'O', 'W', 'N'] => some (.bare .fetTeardown)
  | ['R', 'S', 'P', '.', 'T', 'E', 'A', 'R', 'D', 'O', 'W', 'N'] => some (.bare .rspTeardown)
  | ['S', 'T', 'A', 'T', '.', 'R', 'E', 'A', 'D'] => some (.byte 0x03)
  | ['C', 'R', 'C', '.', 'I', 'N', 'I', 'T'] => some (.bare .crcInit)
  | ['C', 'R', 'C', '.', 'U', 'P', 'D'] => some (.byte 0x11)
  | ['C', 'R', 'C', '.', 'F', 'I', 'N'] => some (.bare .crcFin)
  | ['S', 'U', 'M', '.', 'I', 'N', 'I', 'T'] => some (.bare .sumInit)
  | ['S', 'U', 'M', '.', 'U', 'P', 'D'] => some (.byte 0x21)
  | ['S', 'U', 'M', '.', 'F', 'I', 'N'] => some (.bare .sumFin)
  | ['F', 'T', 'X', '.', 'P', 'U', 'S', 'H'] => some (.byte 0x30)
  | ['F', 'T', 'X', '.', 'E', 'N', 'Q'] => some (.bare .ftxEnq)
  | ['F', 'T', 'X', '.', 'S', 'T', 'E', 'P'] => some (.rdy 0x32)
  | ['F', 'R', 'X', '.', 'B', 'Y', 'T', 'E'] => some (.byte 0x40)
  | ['G', 'R', 'X', '.', 'B', 'Y', 'T', 'E'] => some (.byte 0x50)
  | ['G', 'T', 'X', '.', 'P', 'U', 'S', 'H'] => some (.byte 0x60)
  | ['G', 'T', 'X', '.', 'E', 'N', 'Q', 'W'] => some (.bare .gtxEnqw)
  | ['G', 'T', 'X', '.', 'E', 'N', 'Q', 'U'] => some (.byte 0x62)
  | ['G', 'T', 'X', '.', 'S', 'T', 'E', 'P'] => some (.rdy 0x63)
  | _ => none

/-- The value of a hexadecimal digit character, both cases (R9). -/
def asmHexChar (c : Char) : Option Nat :=
  if c.toNat < 128 then (hexval (BitVec.ofNat 8 c.toNat)).map BitVec.toNat else none

/-- The value of a decimal digit character (R9). -/
def asmDecChar (c : Char) : Option Nat :=
  if 0x30 ≤ c.toNat ∧ c.toNat ≤ 0x39 then some (c.toNat - 0x30) else none

/-- A number written with the digits `digit` reads, in base `base`; none if a character is no digit. -/
def asmDigits (base : Nat) (digit : Char → Option Nat) : Nat → List Char → Option Nat
  | n, [] => some n
  | n, c :: cs => (digit c).bind fun d => asmDigits base digit (n * base + d) cs

/-- An operand byte: `0x` and hexadecimal digits, or a bare decimal number (R9, R107); none above 255. -/
def asmNumber (cs : List Char) : Option Byte :=
  let value := match cs with
    | '0' :: 'x' :: c :: rest => asmDigits 16 asmHexChar 0 (c :: rest)
    | c :: rest => asmDigits 10 asmDecChar 0 (c :: rest)
    | [] => none
  value.bind fun n => if n < 256 then some (BitVec.ofNat 8 n) else none

/-- Whether a character separates the parts of a line. -/
def asmSpace (c : Char) : Bool := c == ' ' || c == '\t'

/-- Whether the rest of a line holds nothing more: blanks, or a comment that `;` starts (R107). -/
def asmEnd (cs : List Char) : Bool :=
  match cs.dropWhile asmSpace with
  | [] => true
  | c :: _ => c == ';'

/-- The operand after a mnemonic: absent, a quoted ASCII character, or a number; none if there is something else. -/
def asmOperand (cs : List Char) : Option (Option Byte) :=
  match cs.dropWhile asmSpace with
  | [] => some none
  | ';' :: _ => some none
  | '\'' :: c :: '\'' :: rest =>
    if asmEnd rest ∧ c.toNat < 128 then some (some (BitVec.ofNat 8 c.toNat)) else none
  | c :: rest =>
    let tok := (c :: rest).takeWhile fun d => !(asmSpace d || d == ';')
    if asmEnd ((c :: rest).drop tok.length) then (asmNumber tok).map some else none

/-- The operation one trace line names (R107); none for a line that is not of the syntax or names a reserved word. -/
def assembleLine (line : List Char) : Option Instr :=
  let cs := line.dropWhile asmSpace
  let name := cs.takeWhile fun c => !(asmSpace c || c == ';')
  match asmForm name, asmOperand (cs.drop name.length) with
  | some (.bare i), some none => some i
  | some (.byte code), some (some b) => (decodeWord (stimulusWord code b)).toOption
  | some (.rdy code), some none => (decodeWord (stimulusWord code 1)).toOption
  | some (.rdy code), some (some b) => (decodeWord (stimulusWord code b)).toOption
  | _, _ => none

end Sys2Proof.Machine
end

