-- ==== Sys2Proof/Tests/Slice0.lean ====
section
/-! SUPPORT. Tests of the model against the spec's tables and worked examples, the refusals of WellFormed, and for every
statement with hypotheses a concrete state that meets them. Each expected value is the spec's; the comment names where. -/

open Sys2Proof Sys2Proof.Machine

namespace Sys2Proof.Tests

/-! ### WellFormed refuses what the spec gives no encoding -/

/-- R106, R264: index 14. -/
theorem test_wellformed_refuses_counter_14 : ¬(Instr.statRead 14).WellFormed := by decide

/-- R84: the sentinel is no FET.DATA. -/
theorem test_wellformed_refuses_data_sentinel : ¬(Instr.fetData 0x7E).WellFormed := by decide

/-- R84: the escape introducer is no FET.DATA. -/
theorem test_wellformed_refuses_data_escape : ¬(Instr.fetData 0x7D).WellFormed := by decide

/-- R146: the bytes at both ends of the three digit ranges, one step outside. -/
theorem test_wellformed_refuses_non_digits :
    ∀ b ∈ [0x2F, 0x3A, 0x40, 0x47, 0x60, 0x67], ¬(Instr.rspHexdigit b).WellFormed := by decide

/-- R41, R90: the last counter and the ends of the digit ranges are well formed. -/
theorem test_wellformed_accepts : (Instr.statRead 13).WellFormed ∧
    ∀ b ∈ [0x30, 0x39, 0x41, 0x46, 0x61, 0x66], (Instr.rspHexdigit b).WellFormed := by decide

/-! ### Decode: words written out from R105 and the opcode table -/


theorem test_decode_system : decodeTableWord 16 0b0000_0000_0000_0000 = some .sysReset ∧
    decodeTableWord 16 0b0000_0001_0000_0000 = some .fetTeardown ∧
    decodeTableWord 16 0b0000_0010_0000_0000 = some .rspTeardown ∧
    decodeTableWord 16 0b0000_0011_0000_0110 = some (.statRead 6) := by decide

theorem test_decode_crc : decodeTableWord 16 0b0001_0000_0000_0000 = some .crcInit ∧
    decodeTableWord 16 0b0001_0001_0111_1110 = some (.crcUpd 0x7E) ∧
    decodeTableWord 16 0b0001_0010_0000_0000 = some .crcFin := by decide

theorem test_decode_sum : decodeTableWord 16 0b0010_0000_0000_0000 = some .sumInit ∧
    decodeTableWord 16 0b0010_0001_0011_0000 = some (.sumUpd 0x30) ∧
    decodeTableWord 16 0b0010_0010_0000_0000 = some .sumFin := by decide

theorem test_decode_ftx : decodeTableWord 16 0b0011_0000_0111_1110 = some (.ftxPush 0x7E) ∧
    decodeTableWord 16 0b0011_0001_0000_0000 = some .ftxEnq ∧
    decodeTableWord 16 0b0011_0010_0000_0001 = some (.ftxStep true) ∧
    decodeTableWord 16 0b0011_0010_0000_0000 = some (.ftxStep false) := by decide

theorem test_decode_receivers : decodeTableWord 16 0b0100_0000_0111_1110 = some (.frxByte 0x7E) ∧
    decodeTableWord 16 0b0101_0000_0010_0100 = some (.grxByte 0x24) := by decide

theorem test_decode_gtx : decodeTableWord 16 0b0110_0000_0101_0100 = some (.gtxPush 0x54) ∧
    decodeTableWord 16 0b0110_0001_0000_0000 = some .gtxEnqw ∧
    decodeTableWord 16 0b0110_0010_0010_1011 = some (.gtxEnqu 0x2B) ∧
    decodeTableWord 16 0b0110_0011_0000_0001 = some (.gtxStep true) ∧
    decodeTableWord 16 0b0110_0011_0000_0000 = some (.gtxStep false) := by decide

/-- R80 to R90: the wire-byte rows. -/
theorem test_decode_wire_bytes :
    decode (.fetByte 0b0111_1110) = .ok .fetSentinel ∧ decode (.fetByte 0b0111_1101) = .ok .fetEscape ∧
    decode (.fetByte 0b0101_1110) = .ok (.fetData 0x5E) ∧ decode (.rspByte 0b0010_0100) = .ok .rspStart ∧
    decode (.rspByte 0b0010_0011) = .ok .rspEnd ∧ decode (.rspByte 0b0111_1101) = .ok .rspEscape ∧
    decode (.rspByte 0b0010_1011) = .ok .rspAck ∧ decode (.rspByte 0b0010_1101) = .ok .rspNak ∧
    decode (.rspByte 0b0110_0110) = .ok (.rspHexdigit 0x66) := by decide

/-- R201: a byte without a row on the RSP link is still received. -/
theorem test_decode_rsp_other_byte : decode (.rspByte 0x03) = .ok (.grxByte 0x03) := by decide

/-- The wire-byte rows as table words; 0x7D is FET.ESCAPE there (log entry 3). -/
theorem test_decode_table_bytes :
    [0x7E, 0x7D, 0x00, 0x24, 0x23, 0x2B, 0x2D, 0x30].map (decodeTableWord 8) =
      [some .fetSentinel, some .fetEscape, some (.fetData 0), some .rspStart, some .rspEnd, some .rspAck, some .rspNak,
        some (.rspHexdigit 0x30)] := by decide

/-- R104, R105: `data` is ignored where there is no operand, and so are bits 7:1 of a transmit step's. -/
theorem test_decode_ignores_unused_bits :
    decodeTableWord 16 0x00FF = some .sysReset ∧ decodeTableWord 16 0x1234 = some .crcFin ∧
    decodeTableWord 16 0x32FE = some (.ftxStep false) ∧ decodeTableWord 16 0x63FF = some (.gtxStep true) := by decide

/-- R106: reserved codes at the ends of the ranges, and `STAT.READ 14`. -/
theorem test_decode_refuses_reserved :
    ∀ w ∈ [0x030E, 0x0400, 0x0F00, 0x1300, 0x1F00, 0x2300, 0x3300, 0x4100, 0x5100, 0x6400, 0x7000, 0xFFFF],
      decodeTableWord 16 w = none := by decide

/-- R107: the four example lines. -/
theorem test_assembler_examples :
    assembleLine "FRX.BYTE 0x7E".toList = some (.frxByte 0x7E) ∧
    assembleLine "GRX.BYTE '$' ; start".toList = some (.grxByte 0x24) ∧
    assembleLine "FTX.STEP".toList = some (.ftxStep true) ∧
    assembleLine "FTX.STEP 0".toList = some (.ftxStep false) := by decide

/-- R106, R107: a reserved index, a missing operand and an unknown mnemonic are no lines. -/
theorem test_assembler_refuses :
    assembleLine "STAT.READ 14".toList = none ∧ assembleLine "CRC.UPD".toList = none ∧
    assembleLine "CRC.NEXT 1".toList = none := by decide

/-! ### Checksums and digits -/


/-- R123: T[0] to T[31]. -/
theorem test_crc_table_0 : (List.range 32).map (fun i => crcTable (BitVec.ofNat 8 (0 + i))) =
    [0x0000, 0x1189, 0x2312, 0x329B, 0x4624, 0x57AD, 0x6536, 0x74BF,
     0x8C48, 0x9DC1, 0xAF5A, 0xBED3, 0xCA6C, 0xDBE5, 0xE97E, 0xF8F7,
     0x1081, 0x0108, 0x3393, 0x221A, 0x56A5, 0x472C, 0x75B7, 0x643E,
     0x9CC9, 0x8D40, 0xBFDB, 0xAE52, 0xDAED, 0xCB64, 0xF9FF, 0xE876] := by decide

/-- R123: T[32] to T[63]. -/
theorem test_crc_table_1 : (List.range 32).map (fun i => crcTable (BitVec.ofNat 8 (32 + i))) =
    [0x2102, 0x308B, 0x0210, 0x1399, 0x6726, 0x76AF, 0x4434, 0x55BD,
     0xAD4A, 0xBCC3, 0x8E58, 0x9FD1, 0xEB6E, 0xFAE7, 0xC87C, 0xD9F5,
     0x3183, 0x200A, 0x1291, 0x0318, 0x77A7, 0x662E, 0x54B5, 0x453C,
     0xBDCB, 0xAC42, 0x9ED9, 0x8F50, 0xFBEF, 0xEA66, 0xD8FD, 0xC974] := by decide

/-- R123: T[64] to T[95]. -/
theorem test_crc_table_2 : (List.range 32).map (fun i => crcTable (BitVec.ofNat 8 (64 + i))) =
    [0x4204, 0x538D, 0x6116, 0x709F, 0x0420, 0x15A9, 0x2732, 0x36BB,
     0xCE4C, 0xDFC5, 0xED5E, 0xFCD7, 0x8868, 0x99E1, 0xAB7A, 0xBAF3,
     0x5285, 0x430C, 0x7197, 0x601E, 0x14A1, 0x0528, 0x37B3, 0x263A,
     0xDECD, 0xCF44, 0xFDDF, 0xEC56, 0x98E9, 0x8960, 0xBBFB, 0xAA72] := by decide

/-- R123: T[96] to T[127]. -/
theorem test_crc_table_3 : (List.range 32).map (fun i => crcTable (BitVec.ofNat 8 (96 + i))) =
    [0x6306, 0x728F, 0x4014, 0x519D, 0x2522, 0x34AB, 0x0630, 0x17B9,
     0xEF4E, 0xFEC7, 0xCC5C, 0xDDD5, 0xA96A, 0xB8E3, 0x8A78, 0x9BF1,
     0x7387, 0x620E, 0x5095, 0x411C, 0x35A3, 0x242A, 0x16B1, 0x0738,
     0xFFCF, 0xEE46, 0xDCDD, 0xCD54, 0xB9EB, 0xA862, 0x9AF9, 0x8B70] := by decide

/-- R123: T[128] to T[159]. -/
theorem test_crc_table_4 : (List.range 32).map (fun i => crcTable (BitVec.ofNat 8 (128 + i))) =
    [0x8408, 0x9581, 0xA71A, 0xB693, 0xC22C, 0xD3A5, 0xE13E, 0xF0B7,
     0x0840, 0x19C9, 0x2B52, 0x3ADB, 0x4E64, 0x5FED, 0x6D76, 0x7CFF,
     0x9489, 0x8500, 0xB79B, 0xA612, 0xD2AD, 0xC324, 0xF1BF, 0xE036,
     0x18C1, 0x0948, 0x3BD3, 0x2A5A, 0x5EE5, 0x4F6C, 0x7DF7, 0x6C7E] := by decide

/-- R123: T[160] to T[191]. -/
theorem test_crc_table_5 : (List.range 32).map (fun i => crcTable (BitVec.ofNat 8 (160 + i))) =
    [0xA50A, 0xB483, 0x8618, 0x9791, 0xE32E, 0xF2A7, 0xC03C, 0xD1B5,
     0x2942, 0x38CB, 0x0A50, 0x1BD9, 0x6F66, 0x7EEF, 0x4C74, 0x5DFD,
     0xB58B, 0xA402, 0x9699, 0x8710, 0xF3AF, 0xE226, 0xD0BD, 0xC134,
     0x39C3, 0x284A, 0x1AD1, 0x0B58, 0x7FE7, 0x6E6E, 0x5CF5, 0x4D7C] := by decide

/-- R123: T[192] to T[223]. -/
theorem test_crc_table_6 : (List.range 32).map (fun i => crcTable (BitVec.ofNat 8 (192 + i))) =
    [0xC60C, 0xD785, 0xE51E, 0xF497, 0x8028, 0x91A1, 0xA33A, 0xB2B3,
     0x4A44, 0x5BCD, 0x6956, 0x78DF, 0x0C60, 0x1DE9, 0x2F72, 0x3EFB,
     0xD68D, 0xC704, 0xF59F, 0xE416, 0x90A9, 0x8120, 0xB3BB, 0xA232,
     0x5AC5, 0x4B4C, 0x79D7, 0x685E, 0x1CE1, 0x0D68, 0x3FF3, 0x2E7A] := by decide

/-- R123: T[224] to T[255]. -/
theorem test_crc_table_7 : (List.range 32).map (fun i => crcTable (BitVec.ofNat 8 (224 + i))) =
    [0xE70E, 0xF687, 0xC41C, 0xD595, 0xA12A, 0xB0A3, 0x8238, 0x93B1,
     0x6B46, 0x7ACF, 0x4854, 0x59DD, 0x2D62, 0x3CEB, 0x0E70, 0x1FF9,
     0xF78F, 0xE606, 0xD49D, 0xC514, 0xB1AB, 0xA022, 0x92B9, 0x8330,
     0x7BC7, 0x6A4E, 0x58D5, 0x495C, 0x3DE3, 0x2C6A, 0x1EF1, 0x0F78] := by decide

/-- R129: check values, the CRC-16/X-25 check value among them. -/
theorem test_crc16_values :
    [[], [0x00], [0xFF], [0x7E], [0x01, 0x02], [0x60], [0x1B, 0x00], [0x83, 0xF2],
      [0x31, 0x32, 0x33, 0x34, 0x35, 0x36, 0x37, 0x38, 0x39]].map crc16 =
    [0x0000, 0xF078, 0xFF00, 0x6A81, 0x358D, 0x937E, 0x7E7E, 0x7D7E, 0x906E] := by decide +kernel

/-- R148 (with 90_conflicts.md C10: 0xB4). -/
theorem test_sum8_values :
    [[0x54, 0x30, 0x30], [], [0x4F, 0x4B], [0xFF, 0x01], [0x80, 0x80, 0x80]].map sum8 =
      [0xB4, 0x00, 0x9A, 0x00, 0x80] := by decide

/-- R145, R146. -/
theorem test_hex_digits :
    hex2 0xB4 = [0x62, 0x34] ∧ hex2 0x3F = [0x33, 0x66] ∧
    [0x39, 0x61, 0x46, 0x67].map hexval = [some 9, some 10, some 15, none] := by decide

/-- 95_test_vectors.md V-FTX: the empty payload, and payloads whose checksum must be escaped; R245: the RSP examples. -/
theorem test_whole_frames :
    fetEncode [] = [0x7E, 0x00, 0x00, 0x7E] ∧ fetEncode [0x7E] = [0x7E, 0x7D, 0x5E, 0x81, 0x6A, 0x7E] ∧
    fetEncode [0x1B, 0x00] = [0x7E, 0x1B, 0x00, 0x7D, 0x5E, 0x7D, 0x5E, 0x7E] ∧
    rspEncode [0x54, 0x30, 0x30] = [0x24, 0x54, 0x30, 0x30, 0x23, 0x62, 0x34] ∧
    rspEncode [0x7D] = [0x24, 0x7D, 0x5D, 0x23, 0x37, 0x64] := by decide +kernel

/-! ### One step of each operation -/

/-- The parameters of the spec's vectors (R8), with room for everything but three queued frames. -/
def small : Params :=
  { fetRxCap := 8, rspRxCap := 8, maxTxPayload := some 4, fetTxqDepth := some 2, rspTxqDepth := some 2 }

/-- A reset block with those parameters. -/
def base : State := State.resetWith small

/-- The FET encoder with queue `q`, staging buffer `[01]`, at position `pos`, its cache valid where in flight. -/
def ftxAt (q : List (List Byte)) (pos : Nat) (esc : Bool) : State :=
  { base with ftx := { stage := [0x01], q := q.map Frame.mk, pos := pos, esc := esc,
                       ck := crc16 (q.headD []), ckv := pos != 0 } }

/-- The FET decoder with the bytes `buf` assembled. -/
def frxAt (mode : FrxMode) (buf : List Byte) (esc : Bool) : State := { base with frx := ⟨mode, buf, esc⟩ }

/-- The RSP receiver with the payload `buf` and the received checksum `rck`. -/
def grxAt (mode : GrxMode) (buf : List Byte) (esc : Bool) (rck : Byte) (digit : Bool) : State :=
  { base with grx := ⟨mode, buf, esc, sum8 buf, rck, digit⟩ }

/-- The RSP transmitter with queue `q` and staging buffer `[54]`. -/
def gtxAt (q : List TaggedFrame) (mode : GtxMode) (idx : Nat) (esc digit : Bool) : State :=
  { base with gtx := ⟨[0x54], q, mode, idx, esc, sum8 ((q.map TaggedFrame.payload).headD []), digit⟩ }

/-- The state an operation answers, where it answers one. -/
def after (i : Instr) (s : State) : Option State :=
  match exec i s with
  | .next t => some t
  | .fault _ => none
  | .refused _ => none

/-- The state one step answers, where it answers one. -/
def afterStep (s : State) : Option State :=
  match step s with
  | .next t => some t
  | .fault _ => none
  | .refused _ => none

/-- What an operation reports. -/
def reported (i : Instr) (s : State) : Option Report := (after i s).map State.report


/-- R320: with no operation given nothing happens. -/
theorem test_step_idle :
    (afterStep base) = some base := by decide

/-- R13: the next stimulus is run and taken. -/
theorem test_step_takes_stimulus :
    ((afterStep (base.withFetchWord 16 0x2130)).map fun t => (t.sumReg, t.stim)) = some (0x30, []) := by decide

/-- R260, its example. -/
theorem test_sysReset_mid_frame :
    ((after .sysReset (frxAt .assemble [0x01] false)).map fun t => (t.frx, t.stats.fetDiscFrames)) = some (Frx.reset, 0) := by decide

/-- R261, its example. -/
theorem test_fetTeardown_in_flight :
    ((after .fetTeardown (ftxAt [[0x02], [0x03]] 2 false)).map fun t => (t.ftx.q, t.ftx.pos, t.ftx.ckv)) = some ([], 0, false) := by decide

/-- R262, its example. -/
theorem test_rspTeardown_in_payload :
    ((after .rspTeardown (grxAt .payload [0x01, 0x02, 0x03] false 0 false)).map fun t => (t.grx, t.stats.rspDiscFrames)) = some (Grx.reset, 0) := by decide

/-- R264: index 13 is `rsp_naks`. -/
theorem test_statRead_last :
    reported (.statRead 13) { base with stats := { Stats.zero with rspNaks := 5, rspAcks := 4 } } = some ⟨.count 5, none⟩ := by decide

/-- R124. -/
theorem test_crcInit_abandons :
    ((after .crcInit { base with crcReg := 0x1E0E }).map State.crcReg) = some 0xFFFF := by decide

/-- R125: from the seed, 0x01 gives 0x1E0E and 0x00 gives 0x0F87. -/
theorem test_crcUpd_example :
    ((after (.crcUpd 0x01) base).map State.crcReg) = some 0x1E0E ∧
    ((after (.crcUpd 0x00) base).map State.crcReg) = some 0x0F87 := by decide

/-- R126: 0x1E0E gives 0xE1F1. -/
theorem test_crcFin_example :
    reported .crcFin { base with crcReg := 0x1E0E } = some ⟨.crc 0xE1F1, none⟩ := by decide

/-- R141. -/
theorem test_sumInit_clears :
    ((after .sumInit { base with sumReg := 0x54 }).map State.sumReg) = some 0x00 := by decide

/-- R142: 0xFF + 0x01 and 0x54 + 0x30. -/
theorem test_sumUpd_wraps :
    ((after (.sumUpd 0x01) { base with sumReg := 0xFF }).map State.sumReg) = some 0x00 ∧
    ((after (.sumUpd 0x30) { base with sumReg := 0x54 }).map State.sumReg) = some 0x84 := by decide

/-- R143. -/
theorem test_sumFin_no_complement :
    reported .sumFin { base with sumReg := 0xB4 } = some ⟨.sum 0xB4, none⟩ := by decide

/-- R150, its example. -/
theorem test_ftxPush_appends :
    ((after (.ftxPush 0x02) (ftxAt [] 0 false)).map fun t => t.ftx.stage) = some [0x01, 0x02] := by decide

/-- R150: `MAX_TX_PAYLOAD` bytes staged. -/
theorem test_ftxPush_full :
    ((after (.ftxPush 0x02) { base with ftx := { Ftx.reset with stage := [1, 2, 3, 4] } }).map fun t =>
      (t.ftx.stage, t.report.result)) = some ([1, 2, 3, 4], .full) := by decide

/-- R160. -/
theorem test_ftxEnq_copies :
    ((after .ftxEnq (ftxAt [[0x7E]] 2 false)).map fun t => (t.ftx.q, t.ftx.stage, t.ftx.pos)) =
      some ([⟨[0x7E]⟩, ⟨[0x01]⟩], [], 2) := by decide

/-- R160, R72: the queue is full and the staged byte kept. -/
theorem test_ftxEnq_full :
    ((after .ftxEnq (ftxAt [[], []] 0 false)).map fun t => (t.ftx.q.length, t.ftx.stage, t.report.result)) =
      some (2, [0x01], .full) := by decide

/-- R155, R156: 0x7E at position 1. -/
theorem test_ftxStep_holds_escaped_byte :
    ((after (.ftxStep true) (ftxAt [[0x7E]] 1 false)).map fun t => (t.report.result, t.ftx.pos, t.ftx.esc)) =
      some (.wire 0x7D, 1, true) ∧
    ((after (.ftxStep true) (ftxAt [[0x7E]] 1 true)).map fun t => (t.report.result, t.ftx.pos, t.ftx.esc)) =
      some (.wire 0x5E, 2, false) := by decide

/-- R159, its example. -/
theorem test_ftxStep_retires :
    ((after (.ftxStep true) (ftxAt [[0x01, 0x02]] 5 false)).map fun t =>
      (t.report, t.ftx.q, t.stats.fetTxFrames, t.stats.fetTxBytes)) = some (⟨.wire 0x7E, some .ftxRetired⟩, [], 1, 2) := by decide

/-- R177, its example. -/
theorem test_frxByte_delivers :
    ((after (.frxByte 0x7E) (frxAt .assemble [0x01, 0x02, 0x8D, 0x35] false)).map fun t =>
      (t.report.event, t.frx, t.stats.fetRxBytes)) = some (some (.deliver .frx [0x01, 0x02]), ⟨.assemble, [], false⟩, 2) := by decide +kernel

/-- R173, its example; R178: a wrong checksum byte. -/
theorem test_frxByte_aborts :
    ((after (.frxByte 0x7E) (frxAt .assemble [0x01] true)).map fun t => (t.report.event, t.frx)) =
      some (some (.err .fetAbort 1), Frx.reset) ∧
    ((after (.frxByte 0x7E) (frxAt .assemble [0x01, 0x02, 0x8D, 0x36] false)).map fun t =>
      (t.report.event, t.stats.fetDiscBytes)) = some (some (.err .fetCksum 4), 4) := by decide +kernel

/-- R212: the second digit of `$?#3f`, and its upper case. -/
theorem test_grxByte_delivers :
    ((after (.grxByte 0x66) (grxAt .cksum [0x3F] false 0x30 true)).map fun t => (t.report.event, t.grx)) =
      some (some (.deliver .grx [0x3F]), Grx.reset) ∧
    ((after (.grxByte 0x46) (grxAt .cksum [0x3F] false 0x30 true)).map fun t => t.stats.rspRxFrames) = some 1 := by decide

/-- R215: `#` ends the payload although an escape is pending. -/
theorem test_grxByte_end_before_escape :
    ((after (.grxByte 0x23) (grxAt .payload [0x3F] true 0 false)).map fun t => (t.grx.mode, t.grx.esc, t.grx.buf)) =
      some (.cksum, false, [0x3F]) := by decide

/-- R230, its example. -/
theorem test_gtxPush_appends :
    ((after (.gtxPush 0x30) (gtxAt [] .idle 0 false false)).map fun t => t.gtx.stage) = some [0x54, 0x30] := by decide

/-- R231. -/
theorem test_gtxEnqw_tags :
    ((after .gtxEnqw (gtxAt [] .idle 0 false false)).map fun t => (t.gtx.q, t.gtx.stage)) = some ([⟨true, [0x54]⟩], []) := by decide

/-- R232. -/
theorem test_gtxEnqu_keeps_stage :
    ((after (.gtxEnqu 0x2B) (gtxAt [] .idle 0 false false)).map fun t => (t.gtx.q, t.gtx.stage)) =
      some ([⟨false, [0x2B]⟩], [0x54]) := by decide

/-- R239: the held byte goes out and the payload ends. -/
theorem test_gtxStep_last_byte :
    ((after (.gtxStep true) (gtxAt [⟨true, [0x7D]⟩] .data 0 true false)).map fun t =>
      (t.report.result, t.gtx.idx, t.gtx.mode)) = some (.wire 0x5D, 1, .ckb) := by decide

/-- R243, its example. -/
theorem test_gtxStep_retires :
    ((after (.gtxStep true) (gtxAt [⟨true, [0x54, 0x30, 0x30]⟩] .ck 3 false true)).map fun t =>
      (t.report, t.gtx.q, t.stats.rspTxBytes)) = some (⟨.wire 0x34, some .gtxRetired⟩, [], 3) := by decide

/-- R171. -/
theorem test_fetSentinel_opens :
    ((after .fetSentinel base).map State.frx) = some ⟨.assemble, [], false⟩ := by decide

/-- R172: 0x7D in `HUNT` does not set `frx_esc`. -/
theorem test_fetEscape_ignored_in_hunt :
    ((after .fetEscape base).map State.frx) = some Frx.reset := by decide

/-- R181: 0x5E stores 0x7E. -/
theorem test_fetData_unescapes :
    ((after (.fetData 0x5E) (frxAt .assemble [] true)).map State.frx) = some ⟨.assemble, [0x7E], false⟩ := by decide

/-- R209, R215. -/
theorem test_rspStart_is_data_in_payload :
    ((after .rspStart (grxAt .payload [] false 0 false)).map fun t => (t.grx.mode, t.grx.buf, t.grx.sum)) =
      some (.payload, [0x24], 0x24) := by decide

/-- R207. -/
theorem test_rspEnd_starts_checksum :
    ((after .rspEnd (grxAt .payload [0x3F] false 0 false)).map fun t => t.grx.mode) = some .cksum := by decide

/-- R208, R215. -/
theorem test_rspEscape_stays_pending :
    ((after .rspEscape (grxAt .payload [0x3F] true 0 false)).map fun t => (t.grx.esc, t.grx.buf)) = some (true, [0x3F]) := by decide

/-- R204. -/
theorem test_rspAck_counts :
    ((after .rspAck base).map fun t => (t.report.event, t.stats.rspAcks)) = some (some .ack, 1) := by decide

/-- R206, R214. -/
theorem test_rspNak_is_no_digit :
    ((after .rspNak (grxAt .cksum [0x3F] false 0 false)).map fun t => t.report.event) = some (some (.err .rspNonhex 1)) := by decide

/-- R211: `3` gives 0x30. -/
theorem test_rspHexdigit_first :
    ((after (.rspHexdigit 0x33) (grxAt .cksum [0x3F] false 0 false)).map fun t => (t.grx.rck, t.grx.digit)) =
      some (0x30, true) := by decide

/-! ### Witnesses: concrete states that meet the hypotheses of the statements, clause by clause -/


/-- Meets the hypotheses of `Obligations.DecodeOfEncodeIsIdentity`. -/
theorem witness_DecodeOfEncodeIsIdentity :
    (Instr.statRead 13).WellFormed ∧ (Instr.fetData 0x7F).WellFormed ∧ (Instr.rspHexdigit 0x66).WellFormed ∧
    (Instr.frxByte 0x7E).WellFormed := by decide

/-- Meets the hypotheses of `Obligations.DecodeDropsOnlyIgnoredBits`. -/
theorem witness_DecodeDropsOnlyIgnoredBits :
    decode (.word 0x12FF) = .ok .crcFin ∧ decode (.word 0x63FF) = .ok (.gtxStep true) ∧
    decode (.word 0x117E) = .ok (.crcUpd 0x7E) ∧ decode (.fetByte 0x7F) = .ok (.fetData 0x7F) ∧
    decode (.rspByte 0x24) = .ok .rspStart ∧ decode (.rspByte 0x66) = .ok (.rspHexdigit 0x66) ∧ decode (.rspByte 0x03) = .ok (.grxByte 0x03) := by decide

/-- Meets the hypotheses of `Obligations.ReservedWordsAreRefused`. -/
theorem witness_ReservedWordsAreRefused :
    ({ base with stim := [.word 0x0F00] } : State).stim = .word 0x0F00 :: [] ∧
    ∀ w ∈ [0x030E, 0x0400, 0x0FFF, 0x1300, 0x1FFF, 0x2300, 0x2FFF, 0x3300, 0x3FFF, 0x4100, 0x4FFF, 0x5100, 0x5FFF,
        0x6400, 0xFFFF],
      (decode (.word (BitVec.ofNat 16 w))).toOption = none := by decide

/-- Meets the hypotheses of `Obligations.StepRunsTheDecodedOperation`. -/
theorem witness_StepRunsTheDecodedOperation :
    ({ base with stim := [.word 0x0000] } : State).stim = .word 0x0000 :: [] ∧ decode (.word 0x0000) = .ok .sysReset ∧
    base.stim = [] := by decide

/-- Meets the hypotheses of `Obligations.CrcSeesEveryOneByteChange`. -/
theorem witness_CrcSeesEveryOneByteChange :
    (0x00 : Byte) ≠ 0x01 := by decide

/-- Meets the hypotheses of `Obligations.Sum8IsAdditiveAndBlindToOrder`. -/
theorem witness_Sum8IsAdditiveAndBlindToOrder :
    [(0x01 : Byte), 0x02].Perm [0x02, 0x01] := by decide

/-- Meets the hypotheses of `Obligations.PushStagesOneByte`. -/
theorem witness_PushStagesOneByte :
    (let s : State := { base with ftx := { Ftx.reset with stage := [1, 2, 3, 4] }, gtx := { Gtx.reset with stage := [1, 2, 3, 4] } };
      s.params.maxTxPayload = some s.ftx.stage.length ∧ s.params.maxTxPayload = some s.gtx.stage.length) ∧
    (let s : State := { base with ftx := { Ftx.reset with stage := [1, 2, 3] }, gtx := { Gtx.reset with stage := [1, 2, 3] } };
      s.params.maxTxPayload ≠ some s.ftx.stage.length ∧ s.params.maxTxPayload ≠ some s.gtx.stage.length) := by decide

/-- Meets the hypotheses of `Obligations.EnqueueAppendsOneFrame`. -/
theorem witness_EnqueueAppendsOneFrame :
    (ftxAt [[], []] 0 false).params.fetTxqDepth = some (ftxAt [[], []] 0 false).ftx.q.length ∧
    (ftxAt [[]] 0 false).params.fetTxqDepth ≠ some (ftxAt [[]] 0 false).ftx.q.length ∧
    (let s := gtxAt [⟨true, []⟩, ⟨false, [1]⟩] .idle 0 false false;
      s.params.rspTxqDepth = some s.gtx.q.length) ∧
    (let s := gtxAt [⟨true, []⟩] .idle 0 false false;
      s.params.rspTxqDepth ≠ some s.gtx.q.length) := by decide

/-- Meets the hypotheses of `Obligations.RefusedTransmitStepChangesNothing`. -/
theorem witness_RefusedTransmitStepChangesNothing :
    base.ftx.q = [] ∧ base.gtx.q = [] := by decide

/-- Meets the hypotheses of `Obligations.FtxAcceptedStepByPosition`. -/
theorem witness_FtxAcceptedStepByPosition :
    (let s := ftxAt [[0x01, 0x7E]] 0 false; s.ftx.q = ⟨[0x01, 0x7E]⟩ :: [] ∧ s.ftx.pos = 0) ∧
    (let s := ftxAt [[0x01, 0x7E]] 1 false; s.ftx.q = ⟨[0x01, 0x7E]⟩ :: [] ∧ s.ftx.pos = 1 ∧ s.ftx.esc = false) ∧
    (∀ e, (ftxAt [[0x01, 0x7E]] 2 e).ftx.pos = 2 ∧ (ftxAt [[0x01, 0x7E]] 2 e).ftx.esc = e) ∧
    (let s := ftxAt [[0x60]] 2 true; s.ftx.pos = (Frame.mk [0x60]).len + 1 ∧ lo8 s.ftx.ck = 0x7E ∧ s.ftx.esc = true) ∧
    (let s := ftxAt [[0x60]] 3 false; s.ftx.pos = (Frame.mk [0x60]).len + 2 ∧ hi8 s.ftx.ck = 0x93 ∧ s.ftx.esc = false) ∧
    (let s := ftxAt [[0x60]] 4 false; s.ftx.q = ⟨[0x60]⟩ :: [] ∧ s.ftx.pos = (Frame.mk [0x60]).len + 3) := by decide

/-- Meets the hypotheses of `Obligations.GtxAcceptedStepByState`. -/
theorem witness_GtxAcceptedStepByState :
    (let s := gtxAt [⟨false, [0x2B]⟩] .idle 0 false false;
      s.gtx.q = ⟨false, [0x2B]⟩ :: [] ∧ s.gtx.mode = .idle ∧ [(0x2B : Byte)][0]? = some 0x2B) ∧
    (let s := gtxAt [⟨true, []⟩] .idle 0 false false; s.gtx.q = ⟨true, []⟩ :: [] ∧ s.gtx.mode = .idle) ∧
    (∀ e, let s := gtxAt [⟨true, [0x54, 0x23]⟩] .data 1 e false;
      s.gtx.mode = .data ∧ s.gtx.esc = e ∧ [(0x54 : Byte), 0x23][s.gtx.idx]? = some 0x23) ∧
    (let s := gtxAt [⟨true, [0x54, 0x23]⟩] .data 0 false false;
      s.gtx.mode = .data ∧ s.gtx.esc = false ∧ [(0x54 : Byte), 0x23][s.gtx.idx]? = some 0x54) ∧
    (gtxAt [⟨true, [0x54]⟩] .ckb 1 false false).gtx.mode = .ckb ∧
    (∀ d, (gtxAt [⟨true, [0x54]⟩] .ck 1 false d).gtx.mode = .ck ∧ (gtxAt [⟨true, [0x54]⟩] .ck 1 false d).gtx.digit = d) := by decide

/-- Meets the hypotheses of `Obligations.FtxStepsEmitTheEncodedFrame`. -/
theorem witness_FtxStepsEmitTheEncodedFrame :
    let s := ftxAt [[0x60], []] 0 false;
    s.ftx.q = ⟨[0x60]⟩ :: [⟨[]⟩] ∧ s.ftx.pos = 0 ∧ s.ftx.esc = false ∧ (s.ftx.ckv = true → s.ftx.ck = crc16 [0x60]) := by decide

/-- Meets the hypotheses of `Obligations.GtxStepsEmitTheEncodedFrame`. -/
theorem witness_GtxStepsEmitTheEncodedFrame :
    let s := gtxAt [⟨true, [0x23]⟩] .idle 0 false false;
    s.gtx.q = ⟨true, [0x23]⟩ :: [] ∧ s.gtx.mode = .idle := by decide

/-- Meets the hypotheses of `Obligations.DrainSendsEveryQueuedFrame`. -/
theorem witness_DrainSendsEveryQueuedFrame :
    (let s := ftxAt [[0x60], []] 0 false; s.ftx.pos = 0 ∧ s.ftx.esc = false ∧ s.ftx.ckv = false) ∧
    (let s := gtxAt [⟨true, []⟩, ⟨false, [0x2B]⟩] .idle 0 false false;
      s.gtx.mode = .idle ∧ ∀ f ∈ s.gtx.q, f.wrapped = false → f.len = 1) := by decide

/-- Meets the hypotheses of `Obligations.FetByteByStateAndClass`. -/
theorem witness_FetByteByStateAndClass :
    (frxAt .hunt [] false).frx.mode = .hunt ∧ (0x7E : Byte) ≠ 0x7D ∧
    (let s := frxAt .assemble [0x01] true; s.frx.mode = .assemble ∧ s.frx.esc = true ∧ s.frx.cnt ≠ s.params.fetRxCap) ∧
    (let s := frxAt .assemble [] false; s.frx.mode = .assemble ∧ s.frx.esc = false ∧ s.frx.buf = []) ∧
    (let s := frxAt .assemble [0x55] false; s.frx.mode = .assemble ∧ s.frx.esc = false ∧ s.frx.cnt = 1) ∧
    (let s := frxAt .assemble [0x00, 0x00] false;
      s.frx.mode = .assemble ∧ s.frx.esc = false ∧ s.frx.buf = [] ++ [0x00, 0x00] ∧
      lo8 (crc16 []) = 0x00 ∧ hi8 (crc16 []) = 0x00) ∧
    (let s := frxAt .assemble [0x00, 0x01] false;
      s.frx.mode = .assemble ∧ s.frx.esc = false ∧ s.frx.buf = [] ++ [0x00, 0x01] ∧
      ¬(lo8 (crc16 []) = 0x00 ∧ hi8 (crc16 []) = 0x01)) ∧
    (∀ e, let s := frxAt .assemble [1, 2, 3, 4, 5, 6, 7, 8] e;
      s.frx.mode = .assemble ∧ s.frx.esc = e ∧ s.frx.cnt = s.params.fetRxCap) := by decide

/-- Meets the hypotheses of `Obligations.RspByteByStateAndClass`. -/
theorem witness_RspByteByStateAndClass :
    (grxAt .idle [] false 0 false).grx.mode = .idle ∧ ((0x03 : Byte) ≠ 0x24 ∧ (0x03 : Byte) ≠ 0x2B ∧ (0x03 : Byte) ≠ 0x2D) ∧
    (∀ e, let s := grxAt .payload [1, 2, 3, 4, 5, 6, 7] e 0 false;
      s.grx.mode = .payload ∧ s.grx.esc = e ∧ s.grx.cnt ≠ s.params.rspRxCap) ∧
    (∀ e, let s := grxAt .payload [1, 2, 3, 4, 5, 6, 7, 8] e 0 false;
      s.grx.mode = .payload ∧ s.grx.esc = e ∧ s.grx.cnt = s.params.rspRxCap) ∧
    (let s := grxAt .cksum [0x3F] false 0 false;
      s.grx.mode = .cksum ∧ s.grx.digit = false ∧ hexval 0x67 = none ∧ hexval 0x33 = some 3) ∧
    (let s := grxAt .cksum [0x3F] false 0x30 true;
      s.grx.mode = .cksum ∧ s.grx.digit = true ∧ hexval 0x66 = some 15 ∧ s.grx.sum = s.grx.rck ||| 15) ∧
    (let s := grxAt .cksum [0x3F] false 0x40 true;
      s.grx.mode = .cksum ∧ s.grx.digit = true ∧ hexval 0x30 = some 0 ∧ s.grx.sum ≠ s.grx.rck ||| 0) := by decide

/-- Meets the hypotheses of `Obligations.WireByteRowsReceiveTheirByte`. -/
theorem witness_WireByteRowsReceiveTheirByte :
    fetWireByte (.fetData 0x7F) = some 0x7F ∧ rspWireByte .rspNak = some 0x2D ∧ base.frx.mode = .hunt ∧
    (let s := frxAt .assemble [1, 2, 3, 4, 5, 6, 7] false;
      s.frx.mode = .assemble ∧ s.frx.esc = false ∧ s.frx.cnt ≠ s.params.fetRxCap ∧ (Instr.fetData 0x7F).WellFormed) ∧
    base.grx.mode = .idle ∧ (grxAt .payload [] false 0 false).grx.mode = .payload ∧
    (let s := grxAt .cksum [] false 0 false; s.grx.mode = .cksum ∧ s.grx.digit = false ∧ hexval 0x39 = some 9) := by decide

/-- Meets the hypotheses of `Obligations.DeliveredFramesPassedTheirCheck`. -/
theorem witness_DeliveredFramesPassedTheirCheck :
    ((after (.frxByte 0x7E) (frxAt .assemble [0x00, 0x00] false)).map fun t => t.report.event) = some (some (.deliver .frx [])) ∧
    ((after (.grxByte 0x30) (grxAt .cksum [] false 0 true)).map fun t => t.report.event) = some (some (.deliver .grx [])) := by decide

/-- Meets the hypotheses of `Obligations.FetFrameRoundTrip`. -/
theorem witness_FetFrameRoundTrip :
    (let s := frxAt .hunt [] false; s.frx.buf = [] ∧ s.frx.esc = false ∧ [(1 : Byte), 2, 3, 4, 5, 6].length + 2 ≤ s.params.fetRxCap) ∧
    (let s := frxAt .assemble [] false; s.frx.buf = [] ∧ s.frx.esc = false ∧ ([] : List Byte).length + 2 ≤ s.params.fetRxCap) := by decide

/-- Meets the hypotheses of `Obligations.RspFrameRoundTrip`. -/
theorem witness_RspFrameRoundTrip :
    base.grx.mode = .idle ∧ [(1 : Byte), 2, 3, 4, 5, 6, 7, 8].length ≤ base.params.rspRxCap := by decide

/-- Meets the hypotheses of `Obligations.FetLinkCarriesAPayload`. -/
theorem witness_FetLinkCarriesAPayload :
    let s := base; let p : List Byte := [0x7E, 0x7D, 0x01, 0x02];
    s.ftx.stage = [] ∧ s.ftx.q = [] ∧ s.ftx.pos = 0 ∧ s.ftx.esc = false ∧ s.ftx.ckv = false ∧
    (∀ m ∈ s.params.maxTxPayload, p.length ≤ m) ∧ s.params.fetTxqDepth ≠ some 0 ∧ s.frx.buf = [] ∧ s.frx.esc = false ∧
    p.length + 2 ≤ s.params.fetRxCap := by decide

/-- Meets the hypotheses of `Obligations.RspLinkCarriesAPayload`. -/
theorem witness_RspLinkCarriesAPayload :
    let s := base; let p : List Byte := [0x23, 0x24, 0x7D, 0x2A];
    s.gtx.stage = [] ∧ s.gtx.q = [] ∧ s.gtx.mode = .idle ∧ (∀ m ∈ s.params.maxTxPayload, p.length ≤ m) ∧
    s.params.rspTxqDepth ≠ some 0 ∧ s.grx.mode = .idle ∧ p.length ≤ s.params.rspRxCap := by decide

/-- Meets the hypotheses of `Obligations.ReceiversRecoverByInputAlone`. -/
theorem witness_ReceiversRecoverByInputAlone :
    (let s := frxAt .assemble [0x01] true; [(0x7E : Byte)].length + 2 ≤ s.params.fetRxCap) ∧
    (let s := grxAt .cksum [0x01] false 0 true; [(0x23 : Byte)].length ≤ s.params.rspRxCap) := by decide

/-- Meets the hypotheses of `Obligations.StatReadReportsTheIndexedCounter`. -/
theorem witness_StatReadReportsTheIndexedCounter :
    (13 : Byte).toNat ≤ 13 ∧ 13 < (14 : Byte).toNat ∧ [(0 : Nat), 1, 2, 3, 4, 5, 6, 7, 8, 9, 10, 11, 12, 13][(13 : Byte).toNat]? = some 13 := by decide

/-- Meets the hypotheses of `Obligations.SysResetIsTheTeardownsAndInits`. -/
theorem witness_SysResetIsTheTeardownsAndInits :
    [Instr.sumInit, .crcInit, .rspTeardown, .fetTeardown].Perm [.fetTeardown, .rspTeardown, .crcInit, .sumInit] := by decide

/-- Meets the hypotheses of `Obligations.ErrorEntryResynchronisesOneReceiver`. -/
theorem witness_ErrorEntryResynchronisesOneReceiver :
    ((after (.frxByte 0x7E) (frxAt .assemble [0x01] true)).map fun t => t.report.event) = some (some (.err .fetAbort 1)) ∧
    Err.fetAbort.code ≤ 4 ∧
    ((after (.grxByte 0x31) (grxAt .cksum [0x01] false 0x10 true)).map fun t => t.report.event) =
      some (some (.err .rspCksum 1)) ∧
    5 ≤ Err.rspCksum.code := by decide

/-- Meets the hypotheses of `Obligations.ErrorsAreRaisedExactlyOnTheirConditions`. -/
theorem witness_ErrorsAreRaisedExactlyOnTheirConditions :
    [(Instr.frxByte 0x7E, frxAt .assemble [0x00, 0x01] false), (.frxByte 0x55, frxAt .assemble [1, 2, 3, 4, 5, 6, 7, 8] false),
      (.fetSentinel, frxAt .assemble [0x55] false), (.frxByte 0x7E, frxAt .assemble [0x01] true),
      (.rspHexdigit 0x31, grxAt .cksum [0x01] false 0x10 true),
      (.grxByte 0x55, grxAt .payload [1, 2, 3, 4, 5, 6, 7, 8] true 0 false),
      (.rspStart, grxAt .cksum [0x01] false 0 false)].map (fun x => (reported x.1 x.2).bind Report.event) =
    [some (.err .fetCksum 2), some (.err .fetOverflow 8), some (.err .fetShort 1), some (.err .fetAbort 1),
      some (.err .rspCksum 1), some (.err .rspOverflow 8), some (.err .rspNonhex 1)] := by decide

/-- Meets the hypotheses of `Obligations.EventsComeFromTheirOwnUnit`. -/
theorem witness_EventsComeFromTheirOwnUnit :
    (reported (.ftxStep true) (ftxAt [[]] 3 false)).bind Report.event = some .ftxRetired ∧
    (reported .rspNak base).bind Report.event = some .nak := by decide

/-- Meets the hypotheses of `Obligations.OperationsOfDifferentUnitsCommute`. -/
theorem witness_OperationsOfDifferentUnitsCommute :
    unitOf (.frxByte 0x7E) ≠ .sys ∧ unitOf .gtxEnqw ≠ .sys ∧ unitOf (.frxByte 0x7E) ≠ unitOf .gtxEnqw ∧
    ((after (.frxByte 0x7E) base).bind (after .gtxEnqw)).isSome := by decide

/-- Meets the hypotheses of `Obligations.AnOperationTouchesOnlyItsUnit`. -/
theorem witness_AnOperationTouchesOnlyItsUnit :
    (after .fetTeardown base).isSome ∧ Instr.fetTeardown ≠ .sysReset ∧ unitOf .fetTeardown ≠ .grx ∧
    counterUnit .rspAcks ≠ unitOf .fetTeardown ∧ counterUnit .rspAcks = .grx := by decide

/-- Meets the hypotheses of `Obligations.CountersAreInvisibleToTheProtocol`. -/
theorem witness_CountersAreInvisibleToTheProtocol :
    (∀ k, Instr.ftxStep true ≠ .statRead k) ∧ (after (.ftxStep true) (ftxAt [[]] 3 false)).isSome := by decide

/-- Meets the hypotheses of `Obligations.CountersOnlyGrow`. -/
theorem witness_CountersOnlyGrow :
    (after (.ftxStep true) (ftxAt [[]] 3 false)).isSome ∧ Instr.ftxStep true ≠ .sysReset := by decide

/-- Meets the hypotheses of `Obligations.QueuesAreFifoAndImmutable`. -/
theorem witness_QueuesAreFifoAndImmutable :
    ((after (.ftxStep true) (ftxAt [[], [0x01]] 3 false)).map fun t => t.ftx.q) = some [⟨[0x01]⟩] ∧
    Instr.ftxStep true ≠ .sysReset ∧ Instr.ftxStep true ≠ .fetTeardown := by decide

/-- Meets the hypotheses of `Obligations.WantWriteFollowsTheQueue`. -/
theorem witness_WantWriteFollowsTheQueue :
    (base.ftx.q = [] ∧ base.params.fetTxqDepth ≠ some 0 ∧ base.gtx.q = [] ∧ base.params.rspTxqDepth ≠ some 0) ∧
    (let s := ftxAt [[]] 3 false; s.ftx.q = [⟨[]⟩] ∧ s.ftx.pos = (Frame.mk []).len + 3) ∧
    (let s := gtxAt [⟨false, [0x2B]⟩] .idle 0 false false;
      s.gtx.q = [⟨false, [0x2B]⟩] ∧ s.gtx.mode = .idle ∧ (TaggedFrame.mk false [0x2B]).len = 1) ∧
    (let s := gtxAt [⟨true, []⟩] .ck 0 false true;
      s.gtx.q = [⟨true, []⟩] ∧ s.gtx.mode = .ck ∧ s.gtx.digit = true) ∧
    (base.ftxWantWrite = false ∧ (after .ftxEnq base).map State.ftxWantWrite = some true) ∧
    ((ftxAt [[]] 3 false).ftxWantWrite = true ∧
      (after (.ftxStep true) (ftxAt [[]] 3 false)).map State.ftxWantWrite = some false) ∧
    (base.gtxWantWrite = false ∧ (after (.gtxEnqu 0x2B) base).map State.gtxWantWrite = some true) ∧
    ((gtxAt [⟨false, [0x2B]⟩] .idle 0 false false).gtxWantWrite = true ∧
      (after (.gtxStep true) (gtxAt [⟨false, [0x2B]⟩] .idle 0 false false)).map State.gtxWantWrite = some false) := by decide

/-- A state in mid-frame on all four framers meets the invariants. -/
theorem witness_ok : ({ base with
    ftx := (ftxAt [[0x7E], []] 1 true).ftx
    frx := (frxAt .assemble [0x01] true).frx
    grx := (grxAt .cksum [0x3F] false 0x30 true).grx
    gtx := (gtxAt [⟨true, [0x23]⟩, ⟨false, [0x2B]⟩] .data 0 true false).gtx } : State).Ok :=
  ⟨by decide, by decide, by decide, by decide, by decide⟩

/-- Meets the hypotheses of `Obligations.StepKeepsTheUnitInvariants`. -/
theorem witness_StepKeepsTheUnitInvariants :
    (ftxAt [[0x7E]] 1 true).Ok ∧ (afterStep ((ftxAt [[0x7E]] 1 true).withFetchWord 16 0x3201)).isSome :=
  ⟨⟨by decide, by decide, by decide, by decide, by decide⟩, by decide⟩

/-- Meets the hypotheses of `Obligations.StartStateMeetsTheUnitInvariants`. -/
theorem witness_StartStateMeetsTheUnitInvariants : small.Ok := by decide

/-- Meets the hypotheses of `Obligations.EveryOperationRunsInEveryOkState`. -/
theorem witness_EveryOperationRunsInEveryOkState :
    (gtxAt [⟨true, [0x23]⟩] .data 0 true false).Ok ∧ (Instr.gtxStep true).WellFormed :=
  ⟨⟨by decide, by decide, by decide, by decide, by decide⟩, by decide⟩

/-- Meets the hypotheses of `Obligations.InflightLastsFromFirstByteToRetirement`. -/
theorem witness_InflightLastsFromFirstByteToRetirement :
    (ftxAt [[0x7E]] 1 true).Ok ∧ (after (.ftxStep true) (ftxAt [[0x7E]] 1 true)).isSome ∧ (ftxAt [[0x7E]] 1 true).ftx.q ≠ [] ∧
    (gtxAt [⟨true, [0x23]⟩] .data 0 true false).Ok ∧
    (after (.gtxStep true) (gtxAt [⟨true, [0x23]⟩] .data 0 true false)).isSome ∧
    (gtxAt [⟨true, [0x23]⟩] .data 0 true false).gtx.q ≠ [] :=
  ⟨⟨by decide, by decide, by decide, by decide, by decide⟩, by decide, by decide,
    ⟨by decide, by decide, by decide, by decide, by decide⟩, by decide, by decide⟩

end Sys2Proof.Tests
end

section
/-! The step as fetch, decode and dispatch (R13, R70), and the wire-byte rows as receptions of their bytes (R84, R92). -/

namespace Sys2Proof.Machine

/-! ### The step -/

/-- With a stimulus lined up, `fetch` takes it off the front. -/
theorem fetch_of_stim_cons {s : State} {x : Stim} {rest : List Stim} (h : s.stim = x :: rest) :
    fetch s = some (x, { s with stim := rest }) := by
  simp [fetch, h]

/-- With no stimulus lined up, `fetch` finds none (R320). -/
theorem fetch_of_stim_nil {s : State} (h : s.stim = []) : fetch s = none := by
  simp [fetch, h]

/-- A step on a stimulus that decodes runs the operation it stands for. -/
theorem step_of_decode_ok {s : State} {x : Stim} {rest : List Stim} {i : Instr} (hs : s.stim = x :: rest)
    (hd : decode x = .ok i) : step s = exec i { s with stim := rest } := by
  simp [step, fetch_of_stim_cons hs, hd]

/-- A step with no stimulus empties the report and does nothing else (R320). -/
theorem step_of_stim_nil {s : State} (hs : s.stim = []) : step s = .next s.quiet := by
  simp [step, fetch_of_stim_nil hs, idle]

/-- Settles O4: `fetch` has two cases, a stimulus or none, and `step` is read off in each. -/
theorem stepRunsTheDecodedOperation : Obligations.StepRunsTheDecodedOperation :=
  ⟨fun _ _ _ _ hs hd => step_of_decode_ok hs hd, fun _ hs => step_of_stim_nil hs⟩

/-! ### Receptions by their wire byte -/

/-- Every operation that takes a FET wire byte is the receive step of R170 on that byte. -/
theorem exec_of_fetWireByte {i : Instr} {b : Byte} (s : State) (h : fetWireByte i = some b) :
    exec i s = .next (frxReceive b s.quiet) := by
  revert h
  fun_cases fetWireByte i
  case case5 => intro h; cases h
  all_goals rintro ⟨⟩; rfl

/-- Every operation that takes an RSP wire byte is the receive step of R200 on that byte. -/
theorem exec_of_rspWireByte {i : Instr} {b : Byte} (s : State) (h : rspWireByte i = some b) :
    exec i s = .next (grxReceive b s.quiet) := by
  revert h
  fun_cases rspWireByte i
  case case8 => intro h; cases h
  all_goals rintro ⟨⟩; rfl

/-! ### The FET receive step, by mode and byte (R170) -/

section Frx
variable {s : State} {b : Byte}

/-- A sentinel in `HUNT` opens a frame. -/
theorem frxReceive_sentinel_of_hunt (hm : s.frx.mode = .hunt) :
    frxReceive Config.fetSentinel s = { s with frx := { mode := .assemble, buf := [], esc := false } } := by
  simp [frxReceive, hm]

/-- An escape introducer in `ASSEMBLE` is remembered and not stored. -/
theorem frxReceive_escape_of_assemble (hm : s.frx.mode = .assemble) (he : s.frx.esc = false) :
    frxReceive Config.fetEscape s = { s with frx := { s.frx with esc := true } } := by
  have hne : Config.fetEscape ≠ Config.fetSentinel := by decide
  simp [frxReceive, hm, he, hne]

/-- A byte that is not reserved, in `ASSEMBLE` with no escape pending, is stored as it is. -/
theorem frxReceive_data_of_assemble (hm : s.frx.mode = .assemble) (he : s.frx.esc = false)
    (hs : b ≠ Config.fetSentinel) (hx : b ≠ Config.fetEscape) : frxReceive b s = frxStore b s := by
  simp [frxReceive, hm, he, hs, hx]

/-- A byte stored below the capacity is appended (R183). -/
theorem frxStore_of_room (hc : s.frx.cnt ≠ s.params.fetRxCap) :
    frxStore b s = { s with frx := { s.frx with buf := s.frx.buf ++ [b] } } :=
  if_neg hc

/-- FET.DATA is "every value but 0x7E, 0x7D" (R84). -/
theorem wellFormed_fetData_iff :
    (Instr.fetData b).WellFormed ↔ b ≠ Config.fetSentinel ∧ b ≠ Config.fetEscape := by
  simp [Instr.WellFormed, Instr.wellFormed, fetReserved]

end Frx

/-! ### The RSP receive step, by mode and byte (R200) -/

section Grx
variable {s : State} {b : Byte}

/-- In `IDLE` a received byte is dispatched by `grxIdle`. -/
theorem grxReceive_of_idle (hm : s.grx.mode = .idle) : grxReceive b s = grxIdle b s := by
  simp [grxReceive, hm]

/-- In `PAYLOAD` a received byte is dispatched by `grxPayload`. -/
theorem grxReceive_of_payload (hm : s.grx.mode = .payload) : grxReceive b s = grxPayload b s := by
  simp [grxReceive, hm]

/-- In `CKSUM` a received byte is dispatched by `grxCksum`. -/
theorem grxReceive_of_cksum (hm : s.grx.mode = .cksum) : grxReceive b s = grxCksum b s := by
  simp [grxReceive, hm]

/-- `$` in `IDLE` opens a frame (R203). -/
theorem grxIdle_start :
    grxIdle Config.rspStart s =
      { s with grx := { s.grx with mode := .payload, buf := [], sum := 0, esc := false } } :=
  rfl

/-- `+` in `IDLE` is counted and reported (R204). -/
theorem grxIdle_ack : grxIdle Config.rspAck s = (s.count .rspAcks 1).notify .ack := rfl

/-- `-` in `IDLE` is counted and reported (R205). -/
theorem grxIdle_nak : grxIdle Config.rspNak s = (s.count .rspNaks 1).notify .nak := rfl

/-- `#` in `PAYLOAD` ends the payload (R207). -/
theorem grxPayload_end :
    grxPayload Config.rspEnd s =
      { s with grx := { s.grx with mode := .cksum, esc := false, rck := 0, digit := false } } :=
  rfl

/-- 0x7D in `PAYLOAD` is remembered and not stored (R208). -/
theorem grxPayload_escape :
    grxPayload Config.rspEscape s = { s with grx := { s.grx with esc := true } } :=
  rfl

/-- The first checksum digit is held as the high nibble (R211). -/
theorem grxCksum_first_digit {d : Byte} (hb : hexval b = some d) (hd : s.grx.digit = false) :
    grxCksum b s = { s with grx := { s.grx with rck := d <<< 4, digit := true } } := by
  simp [grxCksum, hb, hd]

end Grx

/-! ### The rows where the table's context column places them -/

section Rows
variable {s : State} {b : Byte}

/-- FET.SENTINEL in `HUNT` (R80, R84). -/
theorem exec_fetSentinel_of_hunt (hm : s.frx.mode = .hunt) :
    exec .fetSentinel s = .next { s with
      frx := { mode := .assemble, buf := [], esc := false }, report := Report.empty } := by
  rw [exec_of_fetWireByte s rfl, frxReceive_sentinel_of_hunt (s := s.quiet) hm]
  rfl

/-- FET.ESCAPE in `ASSEMBLE` (R81, R84). -/
theorem exec_fetEscape_of_assemble (hm : s.frx.mode = .assemble) (he : s.frx.esc = false) :
    exec .fetEscape s = .next { s with frx := { s.frx with esc := true }, report := Report.empty } := by
  rw [exec_of_fetWireByte s rfl, frxReceive_escape_of_assemble (s := s.quiet) hm he]
  rfl

/-- FET.DATA in `ASSEMBLE`, with room in the buffer (R84). -/
theorem exec_fetData_of_assemble (hm : s.frx.mode = .assemble) (he : s.frx.esc = false)
    (hc : s.frx.cnt ≠ s.params.fetRxCap) (hw : (Instr.fetData b).WellFormed) :
    exec (.fetData b) s = .next { s with
      frx := { s.frx with buf := s.frx.buf ++ [b] }, report := Report.empty } := by
  obtain ⟨hs, hx⟩ := wellFormed_fetData_iff.mp hw
  rw [exec_of_fetWireByte s rfl, frxReceive_data_of_assemble (s := s.quiet) hm he hs hx,
    frxStore_of_room (s := s.quiet) hc]
  rfl

/-- RSP.START in `IDLE` (R87). -/
theorem exec_rspStart_of_idle (hm : s.grx.mode = .idle) :
    exec .rspStart s = .next { s with
      grx := { s.grx with mode := .payload, buf := [], sum := 0, esc := false }, report := Report.empty } := by
  rw [exec_of_rspWireByte s rfl, grxReceive_of_idle (s := s.quiet) hm, grxIdle_start]
  rfl

/-- RSP.ACK in `IDLE` (R88). -/
theorem exec_rspAck_of_idle (hm : s.grx.mode = .idle) :
    exec .rspAck s = .next { s with
      stats := { s.stats with rspAcks := s.stats.rspAcks + 1 }
      report := { result := .nothing, event := some .ack } } := by
  rw [exec_of_rspWireByte s rfl, grxReceive_of_idle (s := s.quiet) hm, grxIdle_ack]
  rfl

/-- RSP.NAK in `IDLE` (R88). -/
theorem exec_rspNak_of_idle (hm : s.grx.mode = .idle) :
    exec .rspNak s = .next { s with
      stats := { s.stats with rspNaks := s.stats.rspNaks + 1 }
      report := { result := .nothing, event := some .nak } } := by
  rw [exec_of_rspWireByte s rfl, grxReceive_of_idle (s := s.quiet) hm, grxIdle_nak]
  rfl

/-- RSP.END in `PAYLOAD` (R87). -/
theorem exec_rspEnd_of_payload (hm : s.grx.mode = .payload) :
    exec .rspEnd s = .next { s with
      grx := { s.grx with mode := .cksum, esc := false, rck := 0, digit := false }, report := Report.empty } := by
  rw [exec_of_rspWireByte s rfl, grxReceive_of_payload (s := s.quiet) hm, grxPayload_end]
  rfl

/-- RSP.ESCAPE in `PAYLOAD` (R89). -/
theorem exec_rspEscape_of_payload (hm : s.grx.mode = .payload) :
    exec .rspEscape s = .next { s with grx := { s.grx with esc := true }, report := Report.empty } := by
  rw [exec_of_rspWireByte s rfl, grxReceive_of_payload (s := s.quiet) hm, grxPayload_escape]
  rfl

/-- RSP.HEXDIGIT as the first digit in `CKSUM` (R90). -/
theorem exec_rspHexdigit_of_cksum {d : Byte} (hm : s.grx.mode = .cksum) (hd : s.grx.digit = false)
    (hb : hexval b = some d) :
    exec (.rspHexdigit b) s = .next { s with
      grx := { s.grx with rck := d <<< 4, digit := true }, report := Report.empty } := by
  rw [exec_of_rspWireByte s rfl, grxReceive_of_cksum (s := s.quiet) hm, grxCksum_first_digit (s := s.quiet) hb hd]
  rfl

end Rows

/-- Settles O26: a row and the receive operation of its link are one receive step on one byte, and each row's place in the
table selects one branch of that step. -/
theorem wireByteRowsReceiveTheirByte : Obligations.WireByteRowsReceiveTheirByte := fun s =>
  ⟨fun _ b hi => ⟨frxReceive b s.quiet, exec_of_fetWireByte s hi, exec_of_fetWireByte s rfl⟩,
    fun _ b hi => ⟨grxReceive b s.quiet, exec_of_rspWireByte s hi, exec_of_rspWireByte s rfl⟩,
    exec_fetSentinel_of_hunt,
    exec_fetEscape_of_assemble,
    fun _ => exec_fetData_of_assemble,
    fun hm => ⟨exec_rspStart_of_idle hm, exec_rspAck_of_idle hm, exec_rspNak_of_idle hm⟩,
    fun hm => ⟨exec_rspEnd_of_payload hm, exec_rspEscape_of_payload hm⟩,
    fun _ _ => exec_rspHexdigit_of_cksum⟩

end Sys2Proof.Machine
end

section
/-! What each operation leaves alone (R20, R70, R263, R316): every operation but the resets is local to its unit, and the
counters of that unit only grow (R41, R45). -/

namespace Sys2Proof.Machine

/-! ### Case analysis by reception -/

/-- To show something of every operation, take the nineteen stimulus operations but the two receptions one by one, and
all operations that receive a byte on the same link together. -/
theorem cases_by_reception {P : Instr → Prop} (sysReset : P .sysReset) (fetTeardown : P .fetTeardown)
    (rspTeardown : P .rspTeardown) (statRead : ∀ k, P (.statRead k)) (crcInit : P .crcInit)
    (crcUpd : ∀ b, P (.crcUpd b)) (crcFin : P .crcFin) (sumInit : P .sumInit) (sumUpd : ∀ b, P (.sumUpd b))
    (sumFin : P .sumFin) (ftxPush : ∀ b, P (.ftxPush b)) (ftxEnq : P .ftxEnq) (ftxStep : ∀ r, P (.ftxStep r))
    (gtxPush : ∀ b, P (.gtxPush b)) (gtxEnqw : P .gtxEnqw) (gtxEnqu : ∀ b, P (.gtxEnqu b))
    (gtxStep : ∀ r, P (.gtxStep r)) (fetByte : ∀ i b, fetWireByte i = some b → P i)
    (rspByte : ∀ i b, rspWireByte i = some b → P i) : ∀ i, P i
  | .sysReset => sysReset
  | .fetTeardown => fetTeardown
  | .rspTeardown => rspTeardown
  | .statRead k => statRead k
  | .crcInit => crcInit
  | .crcUpd b => crcUpd b
  | .crcFin => crcFin
  | .sumInit => sumInit
  | .sumUpd b => sumUpd b
  | .sumFin => sumFin
  | .ftxPush b => ftxPush b
  | .ftxEnq => ftxEnq
  | .ftxStep r => ftxStep r
  | .gtxPush b => gtxPush b
  | .gtxEnqw => gtxEnqw
  | .gtxEnqu b => gtxEnqu b
  | .gtxStep r => gtxStep r
  | .frxByte b | .fetData b => fetByte _ b rfl
  | .fetSentinel | .fetEscape => fetByte _ _ rfl
  | .grxByte b | .rspHexdigit b => rspByte _ b rfl
  | .rspStart | .rspEnd | .rspEscape | .rspAck | .rspNak => rspByte _ _ rfl

/-- The operations that take a FET wire byte are those of `FRX` (R104, R105). -/
theorem fetWireByte_isSome_iff (i : Instr) : (fetWireByte i).isSome = true ↔ unitOf i = .frx := by
  cases i <;> simp [fetWireByte, unitOf]

/-- The operations that take an RSP wire byte are those of `GRX` (R104, R105). -/
theorem rspWireByte_isSome_iff (i : Instr) : (rspWireByte i).isSome = true ↔ unitOf i = .grx := by
  cases i <;> simp [rspWireByte, unitOf]

/-! ### Changes local to a unit -/

/-- The change from `s` to `t` is local to unit `U`: parameters, stimuli, every other unit and its counters are as they
were, and the counters of `U` have not decreased. -/
structure LocalTo (U : BlockUnit) (s t : State) : Prop where
  params : t.params = s.params
  stim : t.stim = s.stim
  crcReg : U ≠ .crc → t.crcReg = s.crcReg
  sumReg : U ≠ .sum → t.sumReg = s.sumReg
  ftx : U ≠ .ftx → t.ftx = s.ftx
  frx : U ≠ .frx → t.frx = s.frx
  grx : U ≠ .grx → t.grx = s.grx
  gtx : U ≠ .gtx → t.gtx = s.gtx
  counters : ∀ c, counterUnit c ≠ U → t.stats.get c = s.stats.get c
  grows : ∀ c, s.stats.get c ≤ t.stats.get c

namespace LocalTo

variable {U : BlockUnit} {s t : State}

/-- Emptying the report is local to any unit. -/
theorem quiet (U : BlockUnit) (s : State) : LocalTo U s s.quiet where
  params := rfl
  stim := rfl
  crcReg _ := rfl
  sumReg _ := rfl
  ftx _ := rfl
  frx _ := rfl
  grx _ := rfl
  gtx _ := rfl
  counters _ _ := rfl
  grows _ := le_rfl

/-- A result is reported outside every unit (R105). -/
theorem answer (h : LocalTo U s t) (r : Result) : LocalTo U s (t.answer r) := { h with }

/-- An event changes no state of the block (R305). -/
theorem notify (h : LocalTo U s t) (e : Event) : LocalTo U s (t.notify e) := { h with }

/-- Counting on a counter of the unit stays in the unit. -/
theorem count (h : LocalTo U s t) {c : Counter} (hc : counterUnit c = U) (k : Nat) : LocalTo U s (t.count c k) :=
  { h with
    counters := fun d hd => by
      have hdc : d ≠ c := fun e => hd (e ▸ hc)
      simpa [State.count, get_bump, hdc] using h.counters d hd
    grows := fun d => by
      have := h.grows d
      simp only [State.count, get_bump]
      split <;> omega }

/-- Counting a frame on counters of the unit stays in the unit. -/
theorem countFrame (h : LocalTo U s t) {f b : Counter} (hf : counterUnit f = U) (hb : counterUnit b = U) (n : Nat) :
    LocalTo U s (t.countFrame f b n) :=
  (h.count hf 1).count hb n

theorem setCrcReg (h : LocalTo .crc s t) (v : Half) : LocalTo .crc s { t with crcReg := v } :=
  { h with crcReg := fun hU => absurd rfl hU }

theorem setSumReg (h : LocalTo .sum s t) (v : Byte) : LocalTo .sum s { t with sumReg := v } :=
  { h with sumReg := fun hU => absurd rfl hU }

theorem setFtx (h : LocalTo .ftx s t) (u : Ftx) : LocalTo .ftx s { t with ftx := u } :=
  { h with ftx := fun hU => absurd rfl hU }

theorem setFrx (h : LocalTo .frx s t) (u : Frx) : LocalTo .frx s { t with frx := u } :=
  { h with frx := fun hU => absurd rfl hU }

theorem setGrx (h : LocalTo .grx s t) (u : Grx) : LocalTo .grx s { t with grx := u } :=
  { h with grx := fun hU => absurd rfl hU }

theorem setGtx (h : LocalTo .gtx s t) (u : Gtx) : LocalTo .gtx s { t with gtx := u } :=
  { h with gtx := fun hU => absurd rfl hU }

/-- Error entry on the FET link stays in `FRX` (R300). -/
theorem raiseFet (h : LocalTo .frx s t) {e : Err} (he : e.unit = .frx) (n : Nat) : LocalTo .frx s (t.raise e n) := by
  simp only [State.raise, he]
  exact ((h.countFrame rfl rfl n).setFrx _).notify _

/-- Error entry on the RSP link stays in `GRX` (R300). -/
theorem raiseRsp (h : LocalTo .grx s t) {e : Err} (he : e.unit = .grx) (n : Nat) : LocalTo .grx s (t.raise e n) := by
  simp only [State.raise, he]
  exact ((h.countFrame rfl rfl n).setGrx _).notify _

/-! ### The receive steps -/

theorem frxStore (h : LocalTo .frx s t) (v : Byte) : LocalTo .frx s (frxStore v t) := by
  obtain ⟨-, heq⟩ | ⟨-, heq⟩ := frxStore_cases v t
  · exact heq ▸ h.raiseFet rfl _
  · exact heq ▸ h.setFrx _

theorem frxClose (h : LocalTo .frx s t) : LocalTo .frx s (frxClose t) := by
  obtain ⟨-, heq⟩ | ⟨-, -, heq⟩ | ⟨-, -, heq⟩ | ⟨-, -, -, heq⟩ | ⟨-, -, -, heq⟩ := frxClose_cases t
  · exact heq ▸ h.raiseFet rfl _
  · rw [heq]; exact h
  · exact heq ▸ h.raiseFet rfl _
  · exact heq ▸ ((h.countFrame rfl rfl _).setFrx _).notify _
  · exact heq ▸ h.raiseFet rfl _

/-- Receiving a FET byte stays in `FRX` (R170). -/
theorem frxReceive (h : LocalTo .frx s t) (b : Byte) : LocalTo .frx s (frxReceive b t) := by
  obtain ⟨-, -, heq⟩ | ⟨-, -, heq⟩ | ⟨-, -, heq⟩ | ⟨-, -, -, heq⟩ | ⟨-, -, -, heq⟩ | ⟨-, -, -, -, heq⟩ :=
    frxReceive_cases b t
  · exact heq ▸ h.setFrx _
  · rw [heq]; exact h
  · exact heq ▸ h.frxClose
  · exact heq ▸ (h.setFrx _).frxStore _
  · exact heq ▸ h.setFrx _
  · exact heq ▸ h.frxStore _

theorem grxIdle (h : LocalTo .grx s t) (b : Byte) : LocalTo .grx s (grxIdle b t) := by
  obtain ⟨-, heq⟩ | ⟨-, heq⟩ | ⟨-, heq⟩ | ⟨-, -, -, heq⟩ := grxIdle_cases b t
  · exact heq ▸ h.setGrx _
  · exact heq ▸ (h.count rfl 1).notify _
  · exact heq ▸ (h.count rfl 1).notify _
  · rw [heq]; exact h

theorem grxStore (h : LocalTo .grx s t) (v : Byte) : LocalTo .grx s (grxStore v t) := by
  obtain ⟨-, heq⟩ | ⟨-, heq⟩ := grxStore_cases v t
  · exact heq ▸ h.raiseRsp rfl _
  · exact heq ▸ h.setGrx _

theorem grxPayload (h : LocalTo .grx s t) (b : Byte) : LocalTo .grx s (grxPayload b t) := by
  obtain ⟨-, heq⟩ | ⟨-, heq⟩ | ⟨-, -, -, heq⟩ | ⟨-, -, -, heq⟩ := grxPayload_cases b t
  · exact heq ▸ h.setGrx _
  · exact heq ▸ h.setGrx _
  · exact heq ▸ (h.setGrx _).grxStore _
  · exact heq ▸ h.grxStore _

theorem grxCksum (h : LocalTo .grx s t) (b : Byte) : LocalTo .grx s (grxCksum b t) := by
  obtain ⟨-, heq⟩ | ⟨_, -, -, heq⟩ | ⟨_, -, -, -, heq⟩ | ⟨_, -, -, -, heq⟩ := grxCksum_cases b t
  · exact heq ▸ h.raiseRsp rfl _
  · exact heq ▸ h.setGrx _
  · exact heq ▸ ((h.countFrame rfl rfl _).setGrx _).notify _
  · exact heq ▸ h.raiseRsp rfl _

/-- Receiving an RSP byte stays in `GRX` (R200). -/
theorem grxReceive (h : LocalTo .grx s t) (b : Byte) : LocalTo .grx s (grxReceive b t) := by
  cases hm : t.grx.mode with
  | idle => exact grxReceive_of_idle hm ▸ h.grxIdle b
  | payload => exact grxReceive_of_payload hm ▸ h.grxPayload b
  | cksum => exact grxReceive_of_cksum hm ▸ h.grxCksum b

end LocalTo

/-! ### The transmit operations -/

section Transmit
variable {s t : State}

theorem execFtxPush_localTo {b : Byte} (h : execFtxPush b s = .next t) : LocalTo .ftx s t := by
  unfold execFtxPush at h
  split at h <;> cases h
  · exact (LocalTo.quiet _ s).answer _
  · exact ((LocalTo.quiet _ s).setFtx _).answer _

theorem execFtxEnq_localTo (h : execFtxEnq s = .next t) : LocalTo .ftx s t := by
  unfold execFtxEnq at h
  split at h <;> cases h
  · exact (LocalTo.quiet _ s).answer _
  · exact ((LocalTo.quiet _ s).setFtx _).answer _

/-- An accepted FET step stays in `FTX`. -/
theorem ftxAccepted_localTo {f : Frame} {rest : List Frame} {a : State} (ha : LocalTo .ftx s a)
    (h : ftxAccepted f rest a = .next t) : LocalTo .ftx s t := by
  obtain ⟨-, heq⟩ | ⟨-, heq⟩ | ⟨b, -, -, -, heq⟩ | ⟨-, heq⟩ := ftxAccepted_cases f rest a
  · cases heq.symm.trans h
    exact (ha.answer _).setFtx _
  · cases heq.symm.trans h
    exact (((ha.answer _).setFtx _).countFrame rfl rfl _).notify _
  · cases heq.symm.trans h
    split_ifs <;> exact (ha.answer _).setFtx _
  · cases heq.symm.trans h

theorem execFtxStep_localTo {r : Bool} (h : execFtxStep r s = .next t) : LocalTo .ftx s t := by
  obtain ⟨-, heq⟩ | ⟨f, rest, -, -, heq⟩ := execFtxStep_cases r s
  · cases heq.symm.trans h
    exact (LocalTo.quiet _ s).answer _
  · rw [ftxCache_eq] at heq
    exact ftxAccepted_localTo ((LocalTo.quiet _ s).setFtx _) (heq.symm.trans h)

theorem execGtxPush_localTo {b : Byte} (h : execGtxPush b s = .next t) : LocalTo .gtx s t := by
  unfold execGtxPush at h
  split at h <;> cases h
  · exact (LocalTo.quiet _ s).answer _
  · exact ((LocalTo.quiet _ s).setGtx _).answer _

theorem execGtxEnqw_localTo (h : execGtxEnqw s = .next t) : LocalTo .gtx s t := by
  unfold execGtxEnqw at h
  split at h <;> cases h
  · exact (LocalTo.quiet _ s).answer _
  · exact ((LocalTo.quiet _ s).setGtx _).answer _

theorem execGtxEnqu_localTo {b : Byte} (h : execGtxEnqu b s = .next t) : LocalTo .gtx s t := by
  unfold execGtxEnqu at h
  split at h <;> cases h
  · exact (LocalTo.quiet _ s).answer _
  · exact ((LocalTo.quiet _ s).setGtx _).answer _

theorem gtxData_localTo {f : TaggedFrame} {b : Byte} {a : State} (ha : LocalTo .gtx s a) :
    LocalTo .gtx s (gtxData f b a) := by
  unfold gtxData
  split_ifs <;> exact (ha.answer _).setGtx _

/-- An accepted RSP step stays in `GTX`. -/
theorem gtxAccepted_localTo {f : TaggedFrame} {rest : List TaggedFrame} {a : State} (ha : LocalTo .gtx s a)
    (h : gtxAccepted f rest a = .next t) : LocalTo .gtx s t := by
  obtain ⟨-, -, heq⟩ | ⟨b, -, -, -, heq⟩ | ⟨b, -, -, heq⟩ | ⟨-, heq⟩ | ⟨-, heq⟩ | ⟨-, -, -, heq⟩ | ⟨-, -, heq⟩ :=
    gtxAccepted_cases f rest a <;> cases heq.symm.trans h
  · exact (ha.answer _).setGtx _
  · exact (((ha.answer _).setGtx _).countFrame rfl rfl _).notify _
  · exact gtxData_localTo ha
  · exact (ha.answer _).setGtx _
  · split_ifs
    · exact (((ha.answer _).setGtx _).countFrame rfl rfl _).notify _
    · exact (ha.answer _).setGtx _

theorem execGtxStep_localTo {r : Bool} (h : execGtxStep r s = .next t) : LocalTo .gtx s t := by
  obtain ⟨-, heq⟩ | ⟨f, rest, -, -, heq⟩ := execGtxStep_cases r s
  · cases heq.symm.trans h
    exact (LocalTo.quiet _ s).answer _
  · exact gtxAccepted_localTo (LocalTo.quiet _ s) (heq.symm.trans h)

end Transmit

theorem execStatRead_localTo {k : Byte} {s t : State} (h : execStatRead k s = .next t) : LocalTo .sys s t := by
  unfold execStatRead at h
  split at h <;> cases h
  exact (LocalTo.quiet _ s).answer _

/-! ### All operations -/

/-- Every operation but the resets is local to the unit it addresses (R20, R70, R316). -/
theorem exec_localTo {i : Instr} {s t : State} (h : exec i s = .next t) (hr : i ≠ .sysReset)
    (hf : i ≠ .fetTeardown) (hp : i ≠ .rspTeardown) : LocalTo (unitOf i) s t := by
  cases i using cases_by_reception with
  | sysReset => exact absurd rfl hr
  | fetTeardown => exact absurd rfl hf
  | rspTeardown => exact absurd rfl hp
  | statRead k => exact execStatRead_localTo h
  | crcInit => cases h; exact (LocalTo.quiet _ s).setCrcReg _
  | crcUpd b => cases h; exact (LocalTo.quiet _ s).setCrcReg _
  | crcFin => cases h; exact (LocalTo.quiet _ s).answer _
  | sumInit => cases h; exact (LocalTo.quiet _ s).setSumReg _
  | sumUpd b => cases h; exact (LocalTo.quiet _ s).setSumReg _
  | sumFin => cases h; exact (LocalTo.quiet _ s).answer _
  | ftxPush b => exact execFtxPush_localTo h
  | ftxEnq => exact execFtxEnq_localTo h
  | ftxStep r => exact execFtxStep_localTo h
  | gtxPush b => exact execGtxPush_localTo h
  | gtxEnqw => exact execGtxEnqw_localTo h
  | gtxEnqu b => exact execGtxEnqu_localTo h
  | gtxStep r => exact execGtxStep_localTo h
  | fetByte i b hb =>
    have hu : unitOf i = .frx := (fetWireByte_isSome_iff i).mp (by simp [hb])
    cases (exec_of_fetWireByte s hb).symm.trans h
    exact hu ▸ (LocalTo.quiet _ s).frxReceive b
  | rspByte i b hb =>
    have hu : unitOf i = .grx := (rspWireByte_isSome_iff i).mp (by simp [hb])
    cases (exec_of_rspWireByte s hb).symm.trans h
    exact hu ▸ (LocalTo.quiet _ s).grxReceive b

/-- `FET.TEARDOWN` leaves the counters of the RSP link (R261). -/
theorem teardownFet_get_of_rsp (s : State) {c : Counter} (hc : counterUnit c = .grx ∨ counterUnit c = .gtx) :
    s.teardownFet.stats.get c = s.stats.get c := by
  cases c <;> simp_all [counterUnit, State.teardownFet, Stats.get]

/-- `RSP.TEARDOWN` leaves the counters of the FET link (R262). -/
theorem teardownRsp_get_of_fet (s : State) {c : Counter} (hc : counterUnit c = .frx ∨ counterUnit c = .ftx) :
    s.teardownRsp.stats.get c = s.stats.get c := by
  cases c <;> simp_all [counterUnit, State.teardownRsp, Stats.get]

/-- Settles O47: a teardown is read off its definition, and every other operation is local to its unit. -/
theorem anOperationTouchesOnlyItsUnit : Obligations.AnOperationTouchesOnlyItsUnit := by
  intro i s t h
  by_cases hr : i = .sysReset
  · subst hr; cases h
    exact ⟨rfl, rfl, fun hn => absurd rfl hn⟩
  by_cases hf : i = .fetTeardown
  · subst hf; cases h
    exact ⟨rfl, rfl, fun _ => ⟨fun _ => rfl, fun _ => rfl, fun _ hn => absurd rfl hn, fun _ hn => absurd rfl hn,
      fun _ _ => rfl, fun _ _ => rfl, fun c _ hc _ => teardownFet_get_of_rsp s.quiet (hc rfl)⟩⟩
  by_cases hp : i = .rspTeardown
  · subst hp; cases h
    exact ⟨rfl, rfl, fun _ => ⟨fun _ => rfl, fun _ => rfl, fun _ _ => rfl, fun _ _ => rfl,
      fun _ hn => absurd rfl hn, fun _ hn => absurd rfl hn,
      fun c _ _ hc => teardownRsp_get_of_fet s.quiet (hc rfl)⟩⟩
  have hl := exec_localTo h hr hf hp
  exact ⟨hl.params, hl.stim, fun _ => ⟨hl.crcReg, hl.sumReg, fun hu _ => hl.ftx hu, fun hu _ => hl.frx hu,
    fun hu _ => hl.grx hu, fun hu _ => hl.gtx hu, fun c hc _ _ => hl.counters c hc⟩⟩

/-- Settles O49: a teardown leaves the other link's counters, and a change local to a unit decreases none. -/
theorem countersOnlyGrow : Obligations.CountersOnlyGrow := by
  intro i s t c h hr hfc hpc
  by_cases hf : i = .fetTeardown
  · subst hf; cases h
    exact (teardownFet_get_of_rsp s.quiet (hfc rfl)).ge
  by_cases hp : i = .rspTeardown
  · subst hp; cases h
    exact (teardownRsp_get_of_fet s.quiet (hpc rfl)).ge
  exact (exec_localTo h hr hf hp).grows c

end Sys2Proof.Machine
end

section
/-! What an operation can do to each framer, once: every later proof about queues, outputs and invariants is a case
analysis of these relations (R24 to R31). -/

namespace Sys2Proof.Machine

/-! ### The FET encoder (R150 to R160) -/

/-- `FTX` with the checksum of head frame `f` cached, as at the start of an accepted step (R152). -/
def Ftx.cached (f : Frame) (u : Ftx) : Ftx :=
  { u with ck := if u.ckv then u.ck else crc16 f.payload, ckv := true }

/-- `ftxCache` makes the cache of the state's `FTX` valid. -/
theorem ftxCache_ftx (f : Frame) (s : State) : (ftxCache f s).ftx = s.ftx.cached f := by
  rw [ftxCache_eq]; rfl

/-- `ftxCache` reports nothing. -/
theorem ftxCache_report (f : Frame) (s : State) : (ftxCache f s).report = s.report := by
  rw [ftxCache_eq]

/-- One accepted step of `FTX` on head frame `f`, from `u` with its checksum cached: the next unit state and the event. -/
inductive FtxAccept (f : Frame) (rest : List Frame) (u : Ftx) : Ftx → Option Event → Prop where
  /-- `SOF` (R154). -/
  | sof (hpos : u.pos = 0) : FtxAccept f rest u { u with pos := 1 } none
  /-- `ESC1` (R155). -/
  | esc1 (b : Byte) (hb : ftxByte f.payload u.ck u.pos = some b) (hlo : 1 ≤ u.pos) (hhi : u.pos ≤ f.len + 2)
      (hres : fetReserved b = true) : FtxAccept f rest u { u with esc := true } none
  /-- `ESC2` (R156), and a byte that passes unchanged (R157, R158). -/
  | sent (hlo : 1 ≤ u.pos) (hhi : u.pos ≤ f.len + 2) :
      FtxAccept f rest u { u with esc := false, pos := u.pos + 1 } none
  /-- `EOF` (R159). -/
  | eof (hpos : u.pos = f.len + 3) :
      FtxAccept f rest u { u with q := rest, pos := 0, esc := false, ckv := false } (some .ftxRetired)

/-- An accepted FET step from a state that has reported no event is one of the four. -/
theorem ftxAccepted_accept {f : Frame} {rest : List Frame} {s t : State} (hs : s.report.event = none)
    (h : ftxAccepted f rest s = .next t) : FtxAccept f rest s.ftx t.ftx t.report.event := by
  obtain ⟨hpos, heq⟩ | ⟨hpos, heq⟩ | ⟨b, hb, hlo, hhi, heq⟩ | ⟨-, heq⟩ := ftxAccepted_cases f rest s <;>
    cases heq.symm.trans h
  · simpa [ftxSof, hs] using FtxAccept.sof (rest := rest) hpos
  · exact .eof hpos
  · split_ifs with he hres
    · simpa [ftxEsc2, hs] using FtxAccept.sent hlo hhi
    · simpa [ftxEsc1, hs] using FtxAccept.esc1 b hb hlo hhi hres
    · have hplain := FtxAccept.sent (rest := rest) hlo hhi
      simpa [ftxPlain, hs, (Bool.not_eq_true _).mp he] using hplain

/-- What operation `i` from `s` can do to `FTX`: the state `u` it leaves and the event it reports. -/
inductive FtxChange (i : Instr) (s : State) (u : Ftx) (ev : Option Event) : Prop where
  /-- Nothing: the operation is another unit's, or is refused (R150, R151, R160). -/
  | same (hu : u = s.ftx) (hr : i ≠ .sysReset) (hf : i ≠ .fetTeardown) (hi : i = .ftxStep true → s.ftx.q = [])
  /-- `SYS.RESET` or `FET.TEARDOWN` (R260, R261). -/
  | reset (hi : i = .sysReset ∨ i = .fetTeardown) (ck : Half) (hu : u = { Ftx.reset with ck := ck })
  /-- An accepted `FTX.PUSH` (R150). -/
  | push (b : Byte) (hi : i = .ftxPush b) (hroom : s.params.maxTxPayload ≠ some s.ftx.stage.length)
      (hu : u = { s.ftx with stage := s.ftx.stage ++ [b] })
  /-- An accepted `FTX.ENQ` (R160). -/
  | enq (hi : i = .ftxEnq) (hroom : s.params.fetTxqDepth ≠ some s.ftx.q.length)
      (hu : u = { s.ftx with q := s.ftx.q ++ [⟨s.ftx.stage⟩], stage := [] })
  /-- An accepted `FTX.STEP` (R151). -/
  | step (hi : i = .ftxStep true) (f : Frame) (rest : List Frame) (hq : s.ftx.q = f :: rest)
      (ha : FtxAccept f rest (s.ftx.cached f) u ev)

theorem execFtxPush_change {b : Byte} {s t : State} (h : exec (.ftxPush b) s = .next t) :
    FtxChange (.ftxPush b) s t.ftx t.report.event := by
  simp only [exec, execFtxPush] at h
  split at h <;> cases h
  · exact .same rfl nofun nofun nofun
  · exact .push b rfl ‹_› rfl

theorem execFtxEnq_change {s t : State} (h : exec .ftxEnq s = .next t) :
    FtxChange .ftxEnq s t.ftx t.report.event := by
  simp only [exec, execFtxEnq] at h
  split at h <;> cases h
  · exact .same rfl nofun nofun nofun
  · exact .enq rfl ‹_› rfl

theorem execFtxStep_change {r : Bool} {s t : State} (h : exec (.ftxStep r) s = .next t) :
    FtxChange (.ftxStep r) s t.ftx t.report.event := by
  obtain ⟨hidle, heq⟩ | ⟨f, rest, hq, hr, heq⟩ := execFtxStep_cases r s
  · cases heq.symm.trans h
    exact .same rfl nofun nofun fun hi => hidle.resolve_right (by simp_all)
  · have ha := ftxAccepted_accept (by rw [ftxCache_report]; rfl) (heq.symm.trans h)
    rw [ftxCache_ftx] at ha
    exact .step (by rw [hr]) f rest hq ha

/-- Every operation that runs changes `FTX` in one of the five ways. -/
theorem exec_ftxChange {i : Instr} {s t : State} (h : exec i s = .next t) : FtxChange i s t.ftx t.report.event := by
  by_cases hr : i = .sysReset
  · subst hr; cases h
    exact .reset (.inl rfl) _ rfl
  by_cases hf : i = .fetTeardown
  · subst hf; cases h
    exact .reset (.inr rfl) _ rfl
  by_cases hu : unitOf i = .ftx
  · match i, hu with
    | .ftxPush b, _ => exact execFtxPush_change h
    | .ftxEnq, _ => exact execFtxEnq_change h
    | .ftxStep r, _ => exact execFtxStep_change h
  · obtain ⟨-, -, hframe⟩ := anOperationTouchesOnlyItsUnit i s t h
    obtain ⟨-, -, hftx, -⟩ := hframe hr
    exact .same (hftx hu hf) hr hf (by rintro rfl; exact absurd rfl hu)

/-! ### The RSP transmitter (R230 to R243) -/

/-- One accepted step of `GTX` on head frame `f`, from `u`: the next unit state and the event. -/
inductive GtxAccept (f : TaggedFrame) (rest : List TaggedFrame) (u : Gtx) : Gtx → Option Event → Prop where
  /-- An unwrapped frame's byte (R235). -/
  | bare (hm : u.mode = .idle) (hw : f.wrapped = false) : GtxAccept f rest u { u with q := rest } (some .gtxRetired)
  /-- The start of a wrapped frame (R236). -/
  | start (hm : u.mode = .idle) (hw : f.wrapped = true) :
      GtxAccept f rest u { u with idx := 0, esc := false, mode := if f.len = 0 then .ckb else .data } none
  /-- The escape introducer of a payload byte (R238). -/
  | esc1 (hm : u.mode = .data) (b : Byte) (hb : f.payload[u.idx]? = some b) (hres : rspReserved b = true) :
      GtxAccept f rest u { u with esc := true } none
  /-- A payload byte, plain (R237) or after its introducer (R239). -/
  | sent (hm : u.mode = .data) : GtxAccept f rest u (gtxAdvance f { u with esc := false }) none
  /-- The end of the payload (R241). -/
  | boundary (hm : u.mode = .ckb) :
      GtxAccept f rest u { u with ck := sum8 f.payload, digit := false, mode := .ck } none
  /-- The first checksum digit (R242). -/
  | high (hm : u.mode = .ck) : GtxAccept f rest u { u with digit := true } none
  /-- The second checksum digit (R243). -/
  | low (hm : u.mode = .ck) :
      GtxAccept f rest u { u with q := rest, digit := false, idx := 0, mode := .idle } (some .gtxRetired)

/-- A step in `DATA` on the byte at the index holds it back or sends it. -/
theorem gtxData_accept {f : TaggedFrame} {rest : List TaggedFrame} {b : Byte} {s : State} (hs : s.report.event = none)
    (hm : s.gtx.mode = .data) (hb : f.payload[s.gtx.idx]? = some b) :
    GtxAccept f rest s.gtx (gtxData f b s).gtx (gtxData f b s).report.event := by
  unfold gtxData
  split_ifs with he hres
  · simpa [hs] using GtxAccept.sent (rest := rest) hm
  · simpa [hs] using GtxAccept.esc1 (rest := rest) hm b hb hres
  · have hu : { s.gtx with esc := false } = s.gtx := by rw [← (Bool.not_eq_true _).mp he]
    simpa [hs, hu] using GtxAccept.sent (rest := rest) hm

/-- An accepted RSP step from a state that has reported no event is one of the seven. -/
theorem gtxAccepted_accept {f : TaggedFrame} {rest : List TaggedFrame} {s t : State} (hs : s.report.event = none)
    (hq : s.gtx.q = f :: rest) (h : gtxAccepted f rest s = .next t) :
    GtxAccept f rest s.gtx t.gtx t.report.event := by
  obtain ⟨hm, hw, heq⟩ | ⟨b, hm, hw, -, heq⟩ | ⟨b, hm, hb, heq⟩ | ⟨hm, heq⟩ | ⟨hm, heq⟩ | ⟨-, -, -, heq⟩ |
    ⟨-, -, heq⟩ := gtxAccepted_cases f rest s <;> cases heq.symm.trans h
  · simpa [gtxStart, hs] using GtxAccept.start hm hw
  · exact .bare hm hw
  · rw [memRead_gtx_head s f rest hq] at hb
    exact gtxData_accept hs hm hb
  · simpa [gtxBoundary, hs] using GtxAccept.boundary hm
  · split_ifs
    · exact .low hm
    · simpa [gtxHigh, hs] using GtxAccept.high hm

/-- What operation `i` from `s` can do to `GTX`: the state `u` it leaves and the event it reports. -/
inductive GtxChange (i : Instr) (s : State) (u : Gtx) (ev : Option Event) : Prop where
  /-- Nothing: the operation is another unit's, or is refused (R230 to R232, R234). -/
  | same (hu : u = s.gtx) (hr : i ≠ .sysReset) (hp : i ≠ .rspTeardown) (hi : i = .gtxStep true → s.gtx.q = [])
  /-- `SYS.RESET` or `RSP.TEARDOWN` (R260, R262). -/
  | reset (hi : i = .sysReset ∨ i = .rspTeardown) (ck : Byte) (hu : u = { Gtx.reset with ck := ck })
  /-- An accepted `GTX.PUSH` (R230). -/
  | push (b : Byte) (hi : i = .gtxPush b) (hroom : s.params.maxTxPayload ≠ some s.gtx.stage.length)
      (hu : u = { s.gtx with stage := s.gtx.stage ++ [b] })
  /-- An accepted `GTX.ENQW` (R231). -/
  | enqw (hi : i = .gtxEnqw) (hroom : s.params.rspTxqDepth ≠ some s.gtx.q.length)
      (hu : u = { s.gtx with q := s.gtx.q ++ [⟨true, s.gtx.stage⟩], stage := [] })
  /-- An accepted `GTX.ENQU` (R232). -/
  | enqu (b : Byte) (hi : i = .gtxEnqu b) (hroom : s.params.rspTxqDepth ≠ some s.gtx.q.length)
      (hu : u = { s.gtx with q := s.gtx.q ++ [⟨false, [b]⟩] })
  /-- An accepted `GTX.STEP` (R234). -/
  | step (hi : i = .gtxStep true) (f : TaggedFrame) (rest : List TaggedFrame) (hq : s.gtx.q = f :: rest)
      (ha : GtxAccept f rest s.gtx u ev)

theorem execGtxPush_change {b : Byte} {s t : State} (h : exec (.gtxPush b) s = .next t) :
    GtxChange (.gtxPush b) s t.gtx t.report.event := by
  simp only [exec, execGtxPush] at h
  split at h <;> cases h
  · exact .same rfl nofun nofun nofun
  · exact .push b rfl ‹_› rfl

theorem execGtxEnqw_change {s t : State} (h : exec .gtxEnqw s = .next t) :
    GtxChange .gtxEnqw s t.gtx t.report.event := by
  simp only [exec, execGtxEnqw] at h
  split at h <;> cases h
  · exact .same rfl nofun nofun nofun
  · exact .enqw rfl ‹_› rfl

theorem execGtxEnqu_change {b : Byte} {s t : State} (h : exec (.gtxEnqu b) s = .next t) :
    GtxChange (.gtxEnqu b) s t.gtx t.report.event := by
  simp only [exec, execGtxEnqu] at h
  split at h <;> cases h
  · exact .same rfl nofun nofun nofun
  · exact .enqu b rfl ‹_› rfl

theorem execGtxStep_change {r : Bool} {s t : State} (h : exec (.gtxStep r) s = .next t) :
    GtxChange (.gtxStep r) s t.gtx t.report.event := by
  obtain ⟨hidle, heq⟩ | ⟨f, rest, hq, hr, heq⟩ := execGtxStep_cases r s
  · cases heq.symm.trans h
    exact .same rfl nofun nofun fun hi => hidle.resolve_right (by simp_all)
  · exact .step (by rw [hr]) f rest hq (gtxAccepted_accept (s := s.quiet) rfl hq (heq.symm.trans h))

/-- Every operation that runs changes `GTX` in one of the six ways. -/
theorem exec_gtxChange {i : Instr} {s t : State} (h : exec i s = .next t) : GtxChange i s t.gtx t.report.event := by
  by_cases hr : i = .sysReset
  · subst hr; cases h
    exact .reset (.inl rfl) _ rfl
  by_cases hp : i = .rspTeardown
  · subst hp; cases h
    exact .reset (.inr rfl) _ rfl
  by_cases hu : unitOf i = .gtx
  · match i, hu with
    | .gtxPush b, _ => exact execGtxPush_change h
    | .gtxEnqw, _ => exact execGtxEnqw_change h
    | .gtxEnqu b, _ => exact execGtxEnqu_change h
    | .gtxStep r, _ => exact execGtxStep_change h
  · obtain ⟨-, -, hframe⟩ := anOperationTouchesOnlyItsUnit i s t h
    obtain ⟨-, -, -, -, -, hgtx, -⟩ := hframe hr
    exact .same (hgtx hu hp) hr hp (by rintro rfl; exact absurd rfl hu)

/-! ### The receivers -/

/-- Every operation that runs leaves `FRX`, resets it, or receives one byte. -/
theorem exec_frx_cases {i : Instr} {s t : State} (h : exec i s = .next t) :
    t.frx = s.frx ∨ t.frx = Frx.reset ∨ ∃ b, t = frxReceive b s.quiet := by
  by_cases hr : i = .sysReset
  · subst hr; cases h
    exact .inr (.inl rfl)
  by_cases hf : i = .fetTeardown
  · subst hf; cases h
    exact .inr (.inl rfl)
  cases hb : fetWireByte i with
  | some b => exact .inr (.inr ⟨b, by cases (exec_of_fetWireByte s hb).symm.trans h; rfl⟩)
  | none =>
    have hu : unitOf i ≠ .frx := fun hu => by simpa [hb] using (fetWireByte_isSome_iff i).mpr hu
    obtain ⟨-, -, hframe⟩ := anOperationTouchesOnlyItsUnit i s t h
    obtain ⟨-, -, -, hfrx, -⟩ := hframe hr
    exact .inl (hfrx hu hf)

/-- Every operation that runs leaves `GRX`, resets it, or receives one byte. -/
theorem exec_grx_cases {i : Instr} {s t : State} (h : exec i s = .next t) :
    t.grx = s.grx ∨ t.grx = Grx.reset ∨ ∃ b, t = grxReceive b s.quiet := by
  by_cases hr : i = .sysReset
  · subst hr; cases h
    exact .inr (.inl rfl)
  by_cases hp : i = .rspTeardown
  · subst hp; cases h
    exact .inr (.inl rfl)
  cases hb : rspWireByte i with
  | some b => exact .inr (.inr ⟨b, by cases (exec_of_rspWireByte s hb).symm.trans h; rfl⟩)
  | none =>
    have hu : unitOf i ≠ .grx := fun hu => by simpa [hb] using (rspWireByte_isSome_iff i).mpr hu
    obtain ⟨-, -, hframe⟩ := anOperationTouchesOnlyItsUnit i s t h
    obtain ⟨-, -, -, -, hgrx, -⟩ := hframe hr
    exact .inl (hgrx hu hp)

end Sys2Proof.Machine
end

section
/-! The invariants of the four framers: reset establishes them and every operation keeps them (R25, R27, R29, R31). -/

namespace Sys2Proof.Machine

/-! ### `FTX` (R24, R25) -/

section Ftx
variable {p : Params} {u : Ftx}

theorem ftxOk_reset (p : Params) (ck : Half) : FtxOk p { Ftx.reset with ck := ck } := by
  simp [FtxOk, Ftx.reset]

theorem ftxOk_push (h : FtxOk p u) (hroom : p.maxTxPayload ≠ some u.stage.length) (b : Byte) :
    FtxOk p { u with stage := u.stage ++ [b] } := by
  obtain ⟨hsize, hdepth, hempty, hhead⟩ := h
  refine ⟨fun m hm => ⟨?_, (hsize m hm).2⟩, hdepth, hempty, hhead⟩
  have hle := (hsize m hm).1
  have hne : m ≠ u.stage.length := fun e => hroom (e ▸ hm)
  simp only [List.length_append, List.length_singleton]
  omega

/-- The frame that arrives at the tail is the staged payload; it is the head only of an empty queue, where nothing is in
flight. -/
theorem ftxOk_enq (h : FtxOk p u) (hroom : p.fetTxqDepth ≠ some u.q.length) :
    FtxOk p { u with q := u.q ++ [⟨u.stage⟩], stage := [] } := by
  obtain ⟨hsize, hdepth, hempty, hhead⟩ := h
  refine ⟨fun m hm => ⟨Nat.zero_le m, fun f hf => ?_⟩, fun d hd => ?_, fun hq => by simp at hq, fun f hf => ?_⟩
  · obtain ⟨hstage, hq⟩ := hsize m hm
    obtain hf | rfl : f ∈ u.q ∨ f = ⟨u.stage⟩ := by simpa using hf
    · exact hq f hf
    · exact hstage
  · have hle := hdepth d hd
    have hne : d ≠ u.q.length := fun e => hroom (e ▸ hd)
    simp only [List.length_append, List.length_singleton]
    omega
  · cases hq : u.q with
    | nil =>
      obtain ⟨hpos, hesc, hckv⟩ := hempty hq
      simp [hpos, hesc, hckv]
    | cons g rest => exact hhead f (by simpa [hq] using hf)

/-- What a change that keeps the head frame `f` has to show, once its checksum is cached. -/
theorem ftxOk_busy (h : FtxOk p u) {f : Frame} {rest : List Frame} (hq : u.q = f :: rest) {u' : Ftx}
    (hst : u'.stage = u.stage) (hq' : u'.q = u.q) (hckv : u'.ckv = true) (hck : u'.ck = crc16 f.payload)
    (hpos : u'.pos ≤ f.len + 3)
    (hesc : u'.esc = true →
      1 ≤ u'.pos ∧ u'.pos ≤ f.len + 2 ∧ ((ftxByte f.payload u'.ck u'.pos).map fetReserved) = some true) :
    FtxOk p u' := by
  obtain ⟨hsize, hdepth, -, -⟩ := h
  refine ⟨by rw [hst, hq']; exact hsize, by rw [hq']; exact hdepth,
    fun h0 => absurd (h0.symm.trans (hq'.trans hq)) (by simp), fun g hg => ?_⟩
  obtain rfl : f = g := by simpa [hq', hq] using hg
  exact ⟨hpos, fun _ => hckv, fun _ => hck, hesc⟩

/-- Caching the head frame's checksum keeps the invariants: a pending escape already has it cached. -/
theorem ftxOk_cached (h : FtxOk p u) {f : Frame} {rest : List Frame} (hq : u.q = f :: rest) :
    FtxOk p (u.cached f) := by
  obtain ⟨-, -, -, hhead⟩ := id h
  obtain ⟨hpos, hcached, hck, hesc⟩ := hhead f (by simp [hq])
  refine ftxOk_busy h hq rfl rfl rfl ?_ hpos fun he => ?_
  · cases hv : u.ckv
    · simp [Ftx.cached, hv]
    · simpa [Ftx.cached, hv] using hck hv
  · have hv : u.ckv = true := hcached (Nat.one_le_iff_ne_zero.mp (hesc he).1)
    simpa [Ftx.cached, hv] using hesc he

/-- An accepted step keeps the invariants; the next frame starts at position 0 with nothing cached. -/
theorem ftxOk_accept (h : FtxOk p u) {f : Frame} {rest : List Frame} (hq : u.q = f :: rest) (hckv : u.ckv = true)
    {u' : Ftx} {ev : Option Event} (ha : FtxAccept f rest u u' ev) : FtxOk p u' := by
  obtain ⟨hsize, hdepth, -, hhead⟩ := id h
  obtain ⟨hpos, -, hck, hesc⟩ := hhead f (by simp [hq])
  cases ha with
  | sof hp => exact ftxOk_busy h hq rfl rfl hckv (hck hckv) (by simp) fun he => absurd (hesc he).1 (by omega)
  | esc1 b hb hlo hhi hres =>
    exact ftxOk_busy h hq rfl rfl hckv (hck hckv) hpos fun _ => ⟨hlo, hhi, by simp [hb, hres]⟩
  | sent hlo hhi => exact ftxOk_busy h hq rfl rfl hckv (hck hckv) (Nat.succ_le_succ hhi) nofun
  | eof hp =>
    have hmem : ∀ g ∈ rest, g ∈ u.q := fun g hg => by simp [hq, hg]
    have hlen : rest.length ≤ u.q.length := by simp [hq]
    exact ⟨fun m hm => ⟨(hsize m hm).1, fun g hg => (hsize m hm).2 g (hmem g hg)⟩,
      fun d hd => hlen.trans (hdepth d hd), fun _ => ⟨rfl, rfl, rfl⟩, fun g _ => by simp⟩

/-- Whatever an operation does to `FTX`, it keeps the invariants. -/
theorem ftxOk_change {i : Instr} {s : State} {ev : Option Event} (h : FtxOk s.params s.ftx)
    (hc : FtxChange i s u ev) : FtxOk s.params u := by
  cases hc with
  | same hu => exact hu ▸ h
  | reset _ ck hu => exact hu ▸ ftxOk_reset _ ck
  | push b _ hroom hu => exact hu ▸ ftxOk_push h hroom b
  | enq _ hroom hu => exact hu ▸ ftxOk_enq h hroom
  | step _ f rest hq ha => exact ftxOk_accept (ftxOk_cached h hq) hq rfl ha

end Ftx

/-! ### `GTX` (R30, R31) -/

section Gtx
variable {p : Params} {u : Gtx}

theorem gtxOk_reset (p : Params) (ck : Byte) : GtxOk p { Gtx.reset with ck := ck } := by
  simp [GtxOk, Gtx.reset]

theorem gtxOk_push (h : GtxOk p u) (hroom : p.maxTxPayload ≠ some u.stage.length) (b : Byte) :
    GtxOk p { u with stage := u.stage ++ [b] } := by
  obtain ⟨hsize, hdepth, hbare, hempty, hidle, hhead⟩ := h
  refine ⟨fun m hm => ⟨?_, (hsize m hm).2⟩, hdepth, hbare, hempty, hidle, hhead⟩
  have hle := (hsize m hm).1
  have hne : m ≠ u.stage.length := fun e => hroom (e ▸ hm)
  simp only [List.length_append, List.length_singleton]
  omega

/-- A frame of the right size may join the tail, whatever becomes of the staging buffer; it is the head only of an empty
queue, where the transmitter is idle. -/
theorem gtxOk_enqueue (h : GtxOk p u) (hroom : p.rspTxqDepth ≠ some u.q.length) {g : TaggedFrame}
    (hwrapped : g.wrapped = true → ∀ m ∈ p.maxTxPayload, g.len ≤ m) (hsingle : g.wrapped = false → g.len = 1)
    {stage : List Byte} (hstage : stage.length ≤ u.stage.length) :
    GtxOk p { u with q := u.q ++ [g], stage := stage } := by
  obtain ⟨hsize, hdepth, hbare, hempty, hidle, hhead⟩ := h
  have hmem : ∀ f ∈ u.q ++ [g], f ∈ u.q ∨ f = g := by simp
  refine ⟨fun m hm => ⟨hstage.trans (hsize m hm).1, fun f hf hw => ?_⟩, fun d hd => ?_, fun f hf hw => ?_,
    fun hq => by simp at hq, hidle, fun f hf => ?_⟩
  · obtain hf | rfl := hmem f hf
    · exact (hsize m hm).2 f hf hw
    · exact hwrapped hw m hm
  · have hle := hdepth d hd
    have hne : d ≠ u.q.length := fun e => hroom (e ▸ hd)
    simp only [List.length_append, List.length_singleton]
    omega
  · obtain hf | rfl := hmem f hf
    · exact hbare f hf hw
    · exact hsingle hw
  · cases hq : u.q with
    | nil =>
      have hm := hempty hq
      obtain ⟨hidx, hesc, hdigit⟩ := hidle hm
      simp [hm, hidx, hesc, hdigit]
    | cons k rest => exact hhead f (by simpa [hq] using hf)

/-- Retiring the head frame leaves an idle transmitter with the rest of the queue. -/
theorem gtxOk_retire (h : GtxOk p u) {f : TaggedFrame} {rest : List TaggedFrame} (hq : u.q = f :: rest)
    (hesc : u.esc = false) : GtxOk p { u with q := rest, digit := false, idx := 0, mode := .idle } := by
  obtain ⟨hsize, hdepth, hbare, -, -, -⟩ := h
  have hmem : ∀ g ∈ rest, g ∈ u.q := fun g hg => by simp [hq, hg]
  have hlen : rest.length ≤ u.q.length := by simp [hq]
  exact ⟨fun m hm => ⟨(hsize m hm).1, fun g hg => (hsize m hm).2 g (hmem g hg)⟩,
    fun d hd => hlen.trans (hdepth d hd), fun g hg => hbare g (hmem g hg), fun _ => rfl,
    fun _ => ⟨rfl, hesc, rfl⟩, fun g _ => by simp [hesc]⟩

/-- What a step that keeps the head frame `f` has to show: the transmitter is busy with `f` and its working registers
agree with `f`. -/
theorem gtxOk_busy (h : GtxOk p u) {f : TaggedFrame} {rest : List TaggedFrame} (hq : u.q = f :: rest)
    (hw : f.wrapped = true) {u' : Gtx} (hst : u'.stage = u.stage) (hq' : u'.q = u.q) (hm : u'.mode ≠ .idle)
    (hidx : u'.idx ≤ f.len) (hdata : u'.mode = .data → u'.idx < f.len) (hck : u'.mode = .ck → u'.ck = sum8 f.payload)
    (hdigit : u'.digit = true → u'.mode = .ck)
    (hesc : u'.esc = true → u'.mode = .data ∧ ((f.payload[u'.idx]?).map rspReserved) = some true) : GtxOk p u' := by
  obtain ⟨hsize, hdepth, hbare, -, -, -⟩ := h
  refine ⟨by rw [hst, hq']; exact hsize, by rw [hq']; exact hdepth, by rw [hq']; exact hbare,
    fun h0 => absurd (h0.symm.trans (hq'.trans hq)) (by simp), fun hi => absurd hi hm, fun g hg => ?_⟩
  obtain rfl : f = g := by simpa [hq', hq] using hg
  exact ⟨fun _ => hw, hidx, hdata, hck, hdigit, hesc⟩

/-- An accepted step keeps the invariants. -/
theorem gtxOk_accept (h : GtxOk p u) {f : TaggedFrame} {rest : List TaggedFrame} (hq : u.q = f :: rest)
    {u' : Gtx} {ev : Option Event} (ha : GtxAccept f rest u u' ev) : GtxOk p u' := by
  obtain ⟨-, -, -, -, hidle, hhead⟩ := id h
  obtain ⟨hwrapped, hidx, hdata, hck, hdigit, hesc⟩ := hhead f (by simp [hq])
  cases ha with
  | bare hm hw =>
    obtain ⟨hi, he, hd⟩ := hidle hm
    have hret := gtxOk_retire h hq he
    rwa [← hi, ← hd, ← hm] at hret
  | start hm hw =>
    obtain ⟨-, -, hd⟩ := hidle hm
    refine gtxOk_busy h hq hw rfl rfl ?_ (Nat.zero_le _) ?_ ?_ ?_ nofun
    · dsimp only; split <;> simp
    · dsimp only; split
      · nofun
      · exact fun _ => Nat.pos_of_ne_zero ‹_›
    · dsimp only; split <;> simp
    · simp [hd]
  | esc1 hm b hb hres =>
    exact gtxOk_busy h hq (hwrapped (by simp [hm])) rfl rfl (by simp [hm]) hidx hdata hck hdigit
      fun _ => ⟨hm, by simp [hb, hres]⟩
  | sent hm =>
    have hlt := hdata hm
    refine gtxOk_busy h hq (hwrapped (by simp [hm])) rfl rfl ?_ hlt ?_ ?_ ?_ nofun
    · dsimp only [gtxAdvance]; split <;> simp [hm]
    · dsimp only [gtxAdvance]; split
      · nofun
      · exact fun _ => lt_of_le_of_ne hlt ‹_›
    · dsimp only [gtxAdvance]; split <;> simp [hm]
    · intro hd; exact absurd (hdigit hd) (by simp [hm])
  | boundary hm =>
    refine gtxOk_busy h hq (hwrapped (by simp [hm])) rfl rfl (by simp) hidx nofun (fun _ => rfl) nofun fun he => ?_
    exact absurd (hesc he).1 (by simp [hm])
  | high hm => exact gtxOk_busy h hq (hwrapped (by simp [hm])) rfl rfl (by simp [hm]) hidx hdata hck (fun _ => hm) hesc
  | low hm =>
    have he : u.esc = false := Bool.eq_false_iff.mpr fun he => absurd (hesc he).1 (by simp [hm])
    exact gtxOk_retire h hq he

/-- Whatever an operation does to `GTX`, it keeps the invariants. -/
theorem gtxOk_change {i : Instr} {s : State} {ev : Option Event} (h : GtxOk s.params s.gtx)
    (hc : GtxChange i s u ev) : GtxOk s.params u := by
  cases hc with
  | same hu => exact hu ▸ h
  | reset _ ck hu => exact hu ▸ gtxOk_reset _ ck
  | push b _ hroom hu => exact hu ▸ gtxOk_push h hroom b
  | enqw _ hroom hu =>
    obtain ⟨hsize, -⟩ := id h
    exact hu ▸ gtxOk_enqueue h hroom (fun _ m hm => (hsize m hm).1) (fun hw => by simp at hw) (Nat.zero_le _)
  | enqu b _ hroom hu => exact hu ▸ gtxOk_enqueue h hroom (fun hw => by simp at hw) (fun _ => rfl) le_rfl
  | step _ f rest hq ha => exact gtxOk_accept h hq ha

end Gtx

/-! ### `FRX` (R26, R27) -/

section Frx
variable {s : State}

theorem frxOk_reset (p : Params) : FrxOk p Frx.reset := by
  simp [FrxOk, Frx.reset, Frx.cnt]

theorem frxOk_raise (p : Params) {e : Err} (he : e.unit = .frx) (n : Nat) : FrxOk p (s.raise e n).frx := by
  rw [raise_fet s e n he]; exact frxOk_reset p

/-- An open frame may hold any bytes up to the capacity. -/
theorem frxOk_assemble {p : Params} {u : Frx} (hm : u.mode = .assemble) (hc : u.cnt ≤ p.fetRxCap) : FrxOk p u :=
  ⟨hc, fun hh => absurd (hm.symm.trans hh) (by simp)⟩

theorem frxOk_store (hm : s.frx.mode = .assemble) (hc : s.frx.cnt ≤ s.params.fetRxCap) (v : Byte) :
    FrxOk s.params (frxStore v s).frx := by
  obtain ⟨-, heq⟩ | ⟨hne, heq⟩ := frxStore_cases v s <;> rw [heq]
  · exact frxOk_raise _ rfl _
  · refine frxOk_assemble hm ?_
    simp only [Frx.cnt, List.length_append, List.length_singleton] at *
    omega

theorem frxOk_close (hm : s.frx.mode = .assemble) (hc : s.frx.cnt ≤ s.params.fetRxCap) :
    FrxOk s.params (frxClose s).frx := by
  obtain ⟨-, heq⟩ | ⟨-, -, heq⟩ | ⟨-, -, heq⟩ | ⟨-, -, -, heq⟩ | ⟨-, -, -, heq⟩ := frxClose_cases s <;> rw [heq]
  · exact frxOk_raise _ rfl _
  · exact frxOk_assemble hm hc
  · exact frxOk_raise _ rfl _
  · exact frxOk_assemble hm (Nat.zero_le _)
  · exact frxOk_raise _ rfl _

/-- Receiving a FET byte keeps the invariants. -/
theorem frxOk_receive (h : FrxOk s.params s.frx) (b : Byte) : FrxOk s.params (frxReceive b s).frx := by
  obtain ⟨hc, -⟩ := id h
  obtain ⟨-, -, heq⟩ | ⟨-, -, heq⟩ | ⟨hm, -, heq⟩ | ⟨hm, -, -, heq⟩ | ⟨hm, -, -, heq⟩ | ⟨hm, -, -, -, heq⟩ :=
    frxReceive_cases b s <;> rw [heq]
  · exact frxOk_assemble rfl (Nat.zero_le _)
  · exact h
  · exact frxOk_close hm hc
  · exact frxOk_store (s := { s with frx := { s.frx with esc := false } }) hm hc _
  · exact frxOk_assemble hm hc
  · exact frxOk_store hm hc b

end Frx

/-! ### `GRX` (R28, R29) -/

section Grx
variable {s : State}

theorem grxOk_reset (p : Params) : GrxOk p Grx.reset := by
  simp [GrxOk, Grx.reset, Grx.cnt, sum8]

theorem grxOk_raise (p : Params) {e : Err} (he : e.unit = .grx) (n : Nat) : GrxOk p (s.raise e n).grx := by
  rw [raise_rsp s e n he]; exact grxOk_reset p

/-- In `PAYLOAD` only the bytes and their sum are constrained, and the digit flag. -/
theorem grxOk_inPayload {p : Params} {u : Grx} (hm : u.mode = .payload) (hc : u.cnt ≤ p.rspRxCap)
    (hs : u.sum = sum8 u.buf) (hd : u.digit = false) : GrxOk p u :=
  ⟨hc, hs, fun hn => absurd hm hn, fun _ => hd, fun hi => absurd (hm.symm.trans hi) (by simp)⟩

/-- In `CKSUM` only the bytes and their sum are constrained, and the escape flag. -/
theorem grxOk_inCksum {p : Params} {u : Grx} (hm : u.mode = .cksum) (hc : u.cnt ≤ p.rspRxCap)
    (hs : u.sum = sum8 u.buf) (he : u.esc = false) : GrxOk p u :=
  ⟨hc, hs, fun _ => he, fun hn => absurd hm hn, fun hi => absurd (hm.symm.trans hi) (by simp)⟩

theorem grxOk_store (hm : s.grx.mode = .payload) (hc : s.grx.cnt ≤ s.params.rspRxCap)
    (hs : s.grx.sum = sum8 s.grx.buf) (hd : s.grx.digit = false) (v : Byte) :
    GrxOk s.params (grxStore v s).grx := by
  obtain ⟨-, heq⟩ | ⟨hne, heq⟩ := grxStore_cases v s <;> rw [heq]
  · exact grxOk_raise _ rfl _
  · refine grxOk_inPayload hm ?_ ?_ hd
    · simp only [Grx.cnt, List.length_append, List.length_singleton] at *
      omega
    · simp only [sum8_snoc, hs]

theorem grxOk_idle (h : GrxOk s.params s.grx) (hm : s.grx.mode = .idle) (b : Byte) :
    GrxOk s.params (grxIdle b s).grx := by
  obtain ⟨-, -, -, hdigit, -⟩ := id h
  obtain ⟨-, heq⟩ | ⟨-, heq⟩ | ⟨-, heq⟩ | ⟨-, -, -, heq⟩ := grxIdle_cases b s <;> rw [heq]
  · exact grxOk_inPayload rfl (Nat.zero_le _) rfl (hdigit (by simp [hm]))
  · exact h
  · exact h
  · exact h

theorem grxOk_payload (h : GrxOk s.params s.grx) (hm : s.grx.mode = .payload) (b : Byte) :
    GrxOk s.params (grxPayload b s).grx := by
  obtain ⟨hc, hs, -, hdigit, -⟩ := h
  have hd := hdigit (by simp [hm])
  obtain ⟨-, heq⟩ | ⟨-, heq⟩ | ⟨-, -, -, heq⟩ | ⟨-, -, -, heq⟩ := grxPayload_cases b s <;> rw [heq]
  · exact grxOk_inCksum rfl hc hs rfl
  · exact grxOk_inPayload hm hc hs hd
  · exact grxOk_store (s := { s with grx := { s.grx with esc := false } }) hm hc hs hd _
  · exact grxOk_store hm hc hs hd b

theorem grxOk_cksum (h : GrxOk s.params s.grx) (hm : s.grx.mode = .cksum) (b : Byte) :
    GrxOk s.params (grxCksum b s).grx := by
  obtain ⟨hc, hs, hesc, -, -⟩ := h
  obtain ⟨-, heq⟩ | ⟨_, -, -, heq⟩ | ⟨_, -, -, -, heq⟩ | ⟨_, -, -, -, heq⟩ := grxCksum_cases b s <;> rw [heq]
  · exact grxOk_raise _ rfl _
  · exact grxOk_inCksum hm hc hs (hesc (by simp [hm]))
  · exact grxOk_reset _
  · exact grxOk_raise _ rfl _

/-- Receiving an RSP byte keeps the invariants. -/
theorem grxOk_receive (h : GrxOk s.params s.grx) (b : Byte) : GrxOk s.params (grxReceive b s).grx := by
  cases hm : s.grx.mode with
  | idle => exact grxReceive_of_idle hm ▸ grxOk_idle h hm b
  | payload => exact grxReceive_of_payload hm ▸ grxOk_payload h hm b
  | cksum => exact grxReceive_of_cksum hm ▸ grxOk_cksum h hm b

end Grx

/-! ### The block -/

/-- The reset state meets the invariants, for whatever parameters R7 allows. -/
theorem resetWith_ok {p : Params} (hp : p.Ok) : (State.resetWith p).Ok :=
  ⟨hp, ftxOk_reset p 0, frxOk_reset p, grxOk_reset p, gtxOk_reset p 0⟩

/-- The parameters the model leaves open are within R7's bounds. -/
theorem config_params_ok : Config.params.Ok := by
  refine ⟨Nat.le_add_left _ _, Nat.le_add_left _ _, fun d hd => ?_, fun d hd => ?_⟩
  · obtain ⟨n, -, rfl⟩ := Option.map_eq_some_iff.mp hd
    exact Nat.le_add_left _ _
  · obtain ⟨n, -, rfl⟩ := Option.map_eq_some_iff.mp hd
    exact Nat.le_add_left _ _

/-- Every operation keeps the invariants, one unit at a time. -/
theorem exec_keeps_ok {i : Instr} {s t : State} (hs : s.Ok) (h : exec i s = .next t) : t.Ok := by
  obtain ⟨hparams, hftx, hfrx, hgrx, hgtx⟩ := hs
  obtain ⟨hp, -, -⟩ := anOperationTouchesOnlyItsUnit i s t h
  unfold State.Ok
  rw [hp]
  refine ⟨hparams, ftxOk_change hftx (exec_ftxChange h), ?_, ?_, gtxOk_change hgtx (exec_gtxChange h)⟩
  · obtain heq | heq | ⟨b, rfl⟩ := exec_frx_cases h
    · exact heq ▸ hfrx
    · exact heq ▸ frxOk_reset _
    · exact frxOk_receive (s := s.quiet) hfrx b
  · obtain heq | heq | ⟨b, rfl⟩ := exec_grx_cases h
    · exact heq ▸ hgrx
    · exact heq ▸ grxOk_reset _
    · exact grxOk_receive (s := s.quiet) hgrx b

/-- Settles O43: a step empties the report or runs one decoded operation. -/
theorem stepKeepsTheUnitInvariants : Obligations.StepKeepsTheUnitInvariants := by
  intro s t hs h
  cases hstim : s.stim with
  | nil =>
    cases (step_of_stim_nil hstim).symm.trans h
    exact hs
  | cons x rest =>
    cases hd : decode x with
    | ok i => exact exec_keeps_ok (s := { s with stim := rest }) hs ((step_of_decode_ok hstim hd).symm.trans h)
    | error e => simp [step, fetch_of_stim_cons hstim, hd] at h

/-- Settles O44: the reset values meet every unit's invariants, and the model's own parameters are within R7's bounds. -/
theorem startStateMeetsTheUnitInvariants : Obligations.StartStateMeetsTheUnitInvariants :=
  ⟨resetWith_ok config_params_ok, fun _ => resetWith_ok⟩

/-- Every counter of the reset block reads 0. -/
theorem zero_get (c : Counter) : Stats.zero.get c = 0 := by
  cases c <;> rfl

/-- Settles O36: every field of `State.resetWith` is R50's value by definition. -/
theorem startStateHoldsTheStatedValues : Obligations.StartStateHoldsTheStatedValues :=
  ⟨rfl, rfl, rfl, rfl, rfl, rfl, rfl, rfl, rfl, rfl, rfl, rfl, rfl, rfl, rfl, zero_get⟩

end Sys2Proof.Machine
end

section
/-! No operation but `STAT.READ` reads a counter (R43): states that differ in the counters alone take the same branch
everywhere. -/

namespace Sys2Proof.Machine

/-- `t` is `s` but for the counters. -/
def Recounted (s t : State) : Prop := ∃ a, t = { s with stats := a }

/-- Two answers are the same but for the counters of the next state. -/
inductive AnswersAlike : Answer → Answer → Prop where
  | next {s t : State} (h : Recounted s t) : AnswersAlike (.next s) (.next t)
  | fault (f : Fault) : AnswersAlike (.fault f) (.fault f)
  | refused (r : Refusal) : AnswersAlike (.refused r) (.refused r)

namespace Recounted

variable {s t : State}

theorem quiet (h : Recounted s t) : Recounted s.quiet t.quiet := by
  obtain ⟨a, rfl⟩ := h; exact ⟨a, rfl⟩

theorem raise (h : Recounted s t) (e : Err) (n : Nat) : Recounted (s.raise e n) (t.raise e n) := by
  obtain ⟨a, rfl⟩ := h
  unfold State.raise
  split <;> exact ⟨_, rfl⟩

/-! ### The receive steps -/

theorem frxStore (h : Recounted s t) (v : Byte) : Recounted (frxStore v s) (frxStore v t) := by
  obtain ⟨a, rfl⟩ := h
  dsimp only [Machine.frxStore]
  split_ifs
  · exact raise ⟨a, rfl⟩ _ _
  · exact ⟨a, rfl⟩

theorem frxClose (h : Recounted s t) : Recounted (frxClose s) (frxClose t) := by
  obtain ⟨a, rfl⟩ := h
  dsimp only [Machine.frxClose, frxValidate]
  split_ifs
  · exact raise ⟨a, rfl⟩ _ _
  · exact ⟨a, rfl⟩
  · exact raise ⟨a, rfl⟩ _ _
  · exact ⟨_, rfl⟩
  · exact raise ⟨a, rfl⟩ _ _

theorem frxReceive (h : Recounted s t) (b : Byte) : Recounted (frxReceive b s) (frxReceive b t) := by
  obtain ⟨a, rfl⟩ := h
  dsimp only [Machine.frxReceive]
  split <;> split_ifs
  · exact ⟨a, rfl⟩
  · exact ⟨a, rfl⟩
  · exact frxClose ⟨a, rfl⟩
  · exact frxStore ⟨a, rfl⟩ _
  · exact ⟨a, rfl⟩
  · exact frxStore ⟨a, rfl⟩ _

theorem grxStore (h : Recounted s t) (v : Byte) : Recounted (grxStore v s) (grxStore v t) := by
  obtain ⟨a, rfl⟩ := h
  dsimp only [Machine.grxStore]
  split_ifs
  · exact raise ⟨a, rfl⟩ _ _
  · exact ⟨a, rfl⟩

theorem grxIdle (h : Recounted s t) (b : Byte) : Recounted (grxIdle b s) (grxIdle b t) := by
  obtain ⟨a, rfl⟩ := h
  dsimp only [Machine.grxIdle]
  split_ifs <;> exact ⟨_, rfl⟩

theorem grxPayload (h : Recounted s t) (b : Byte) : Recounted (grxPayload b s) (grxPayload b t) := by
  obtain ⟨a, rfl⟩ := h
  dsimp only [Machine.grxPayload, grxData]
  split_ifs
  · exact ⟨a, rfl⟩
  · exact ⟨a, rfl⟩
  · exact grxStore ⟨a, rfl⟩ _
  · exact grxStore ⟨a, rfl⟩ _

theorem grxCksum (h : Recounted s t) (b : Byte) : Recounted (grxCksum b s) (grxCksum b t) := by
  obtain ⟨a, rfl⟩ := h
  dsimp only [Machine.grxCksum, grxVerdict]
  split
  · exact raise ⟨a, rfl⟩ _ _
  · split_ifs
    · exact ⟨_, rfl⟩
    · exact raise ⟨a, rfl⟩ _ _
    · exact ⟨a, rfl⟩

theorem grxReceive (h : Recounted s t) (b : Byte) : Recounted (grxReceive b s) (grxReceive b t) := by
  have hg : t.grx = s.grx := by obtain ⟨a, rfl⟩ := h; rfl
  cases hm : s.grx.mode with
  | idle => exact grxReceive_of_idle hm ▸ grxReceive_of_idle (hg ▸ hm) ▸ h.grxIdle b
  | payload => exact grxReceive_of_payload hm ▸ grxReceive_of_payload (hg ▸ hm) ▸ h.grxPayload b
  | cksum => exact grxReceive_of_cksum hm ▸ grxReceive_of_cksum (hg ▸ hm) ▸ h.grxCksum b

end Recounted

/-! ### The transmit steps -/

theorem ftxAccepted_alike {s t : State} (h : Recounted s t) (f : Frame) (rest : List Frame) :
    AnswersAlike (ftxAccepted f rest s) (ftxAccepted f rest t) := by
  obtain ⟨a, rfl⟩ := h
  dsimp only [ftxAccepted]
  split
  · exact .next ⟨a, rfl⟩
  · split
    · exact .next ⟨_, rfl⟩
    · split
      · split_ifs <;> exact .next ⟨a, rfl⟩
      · exact .fault _

theorem execFtxStep_alike (r : Bool) (s : State) (a : Stats) :
    AnswersAlike (execFtxStep r s) (execFtxStep r { s with stats := a }) := by
  dsimp only [execFtxStep]
  split
  · exact .next ⟨a, rfl⟩
  · split_ifs
    · exact ftxAccepted_alike ⟨a, by simp only [ftxCache_eq]; rfl⟩ _ _
    · exact .next ⟨a, rfl⟩

theorem gtxAccepted_alike {s t : State} (h : Recounted s t) (f : TaggedFrame) (rest : List TaggedFrame) :
    AnswersAlike (gtxAccepted f rest s) (gtxAccepted f rest t) := by
  obtain ⟨a, rfl⟩ := h
  have hread (k : Nat) : State.memRead { s with stats := a } (.gtxQ 0) k = s.memRead (.gtxQ 0) k := rfl
  dsimp only [gtxAccepted]
  simp only [hread]
  split
  · split_ifs
    · exact .next ⟨a, rfl⟩
    · split
      · exact .next ⟨_, rfl⟩
      · exact .fault _
  · split
    · dsimp only [gtxData]
      split_ifs <;> exact .next ⟨a, rfl⟩
    · exact .fault _
  · exact .next ⟨a, rfl⟩
  · split_ifs <;> exact .next ⟨_, rfl⟩

theorem execGtxStep_alike (r : Bool) (s : State) (a : Stats) :
    AnswersAlike (execGtxStep r s) (execGtxStep r { s with stats := a }) := by
  dsimp only [execGtxStep]
  split
  · exact .next ⟨a, rfl⟩
  · split_ifs
    · exact gtxAccepted_alike ⟨a, rfl⟩ _ _
    · exact .next ⟨a, rfl⟩

/-- Every operation but `STAT.READ` answers states that differ in the counters alone with answers that do (R43). -/
theorem exec_alike {i : Instr} (hi : ∀ k, i ≠ .statRead k) (s : State) (a : Stats) :
    AnswersAlike (exec i s) (exec i { s with stats := a }) := by
  cases i using cases_by_reception with
  | statRead k => exact absurd rfl (hi k)
  | sysReset => exact .next ⟨_, rfl⟩
  | fetTeardown => exact .next ⟨_, rfl⟩
  | rspTeardown => exact .next ⟨_, rfl⟩
  | crcInit => exact .next ⟨a, rfl⟩
  | crcUpd b => exact .next ⟨a, rfl⟩
  | crcFin => exact .next ⟨a, rfl⟩
  | sumInit => exact .next ⟨a, rfl⟩
  | sumUpd b => exact .next ⟨a, rfl⟩
  | sumFin => exact .next ⟨a, rfl⟩
  | ftxPush b => dsimp only [exec, execFtxPush]; split_ifs <;> exact .next ⟨a, rfl⟩
  | ftxEnq => dsimp only [exec, execFtxEnq]; split_ifs <;> exact .next ⟨a, rfl⟩
  | ftxStep r => exact execFtxStep_alike r s a
  | gtxPush b => dsimp only [exec, execGtxPush]; split_ifs <;> exact .next ⟨a, rfl⟩
  | gtxEnqw => dsimp only [exec, execGtxEnqw]; split_ifs <;> exact .next ⟨a, rfl⟩
  | gtxEnqu b => dsimp only [exec, execGtxEnqu]; split_ifs <;> exact .next ⟨a, rfl⟩
  | gtxStep r => exact execGtxStep_alike r s a
  | fetByte i b hb =>
    rw [exec_of_fetWireByte _ hb, exec_of_fetWireByte _ hb]
    exact .next (Recounted.frxReceive (Recounted.quiet ⟨a, rfl⟩) b)
  | rspByte i b hb =>
    rw [exec_of_rspWireByte _ hb, exec_of_rspWireByte _ hb]
    exact .next (Recounted.grxReceive (Recounted.quiet ⟨a, rfl⟩) b)

/-- Settles O48: the two answers are alike, so the second is the first with other counters, or the same fault. -/
theorem countersAreInvisibleToTheProtocol : Obligations.CountersAreInvisibleToTheProtocol := by
  intro i s a hi
  have halike := exec_alike hi s a
  refine ⟨fun t ht => ?_, fun f hf => ?_⟩
  · rw [ht] at halike
    generalize exec i { s with stats := a } = y at halike ⊢
    cases halike with
    | next h =>
      obtain ⟨a', rfl⟩ := h
      exact ⟨a', rfl⟩
  · rw [hf] at halike
    generalize exec i { s with stats := a } = y at halike ⊢
    cases halike
    rfl

end Sys2Proof.Machine
end

section
/-! The derived outputs of R33 along every operation: want-write follows the queue, and a link is in flight from a frame's
first byte to its retirement. -/

namespace Sys2Proof.Machine

/-! ### What the outputs say -/

theorem ftxWantWrite_iff (s : State) : s.ftxWantWrite = true ↔ s.ftx.q ≠ [] := by
  simp [State.ftxWantWrite]

theorem gtxWantWrite_iff (s : State) : s.gtxWantWrite = true ↔ s.gtx.q ≠ [] := by
  simp [State.gtxWantWrite]

theorem ftxWantWrite_eq_false_iff (s : State) : s.ftxWantWrite = false ↔ s.ftx.q = [] := by
  simp [State.ftxWantWrite]

theorem gtxWantWrite_eq_false_iff (s : State) : s.gtxWantWrite = false ↔ s.gtx.q = [] := by
  simp [State.gtxWantWrite]

/-! ### Want-write rises at an enqueue on an empty queue -/

section Rises
variable {s : State}

theorem exec_ftxEnq_raises (hq : s.ftx.q = []) (hd : s.params.fetTxqDepth ≠ some 0) :
    ∃ t, exec .ftxEnq s = .next t ∧ t.ftxWantWrite = true := by
  simp [exec, execFtxEnq, hq, hd, State.ftxWantWrite]

theorem exec_gtxEnqw_raises (hq : s.gtx.q = []) (hd : s.params.rspTxqDepth ≠ some 0) :
    ∃ t, exec .gtxEnqw s = .next t ∧ t.gtxWantWrite = true := by
  simp [exec, execGtxEnqw, hq, hd, State.gtxWantWrite]

theorem exec_gtxEnqu_raises (hq : s.gtx.q = []) (hd : s.params.rspTxqDepth ≠ some 0) (b : Byte) :
    ∃ t, exec (.gtxEnqu b) s = .next t ∧ t.gtxWantWrite = true := by
  simp [exec, execGtxEnqu, hq, hd, State.gtxWantWrite]

end Rises

/-! ### Want-write falls at the retirement of the only queued frame -/

section Falls
variable {s : State}

/-- An FET step past the last checksum byte retires the head frame (R159). -/
theorem exec_ftxStep_retires {f : Frame} {rest : List Frame} (hq : s.ftx.q = f :: rest) (hp : s.ftx.pos = f.len + 3) :
    exec (.ftxStep true) s = .next (ftxEof f rest (ftxCache f s.quiet)) := by
  have hpos : (ftxCache f s.quiet).ftx.pos = f.len + 3 := by rw [ftxCache_ftx]; exact hp
  simp [exec, execFtxStep, hq, ftxAccepted, hpos]

/-- An RSP step on an unwrapped head frame retires it (R235). -/
theorem exec_gtxStep_retires_bare {f : TaggedFrame} {rest : List TaggedFrame} (hq : s.gtx.q = f :: rest)
    (hm : s.gtx.mode = .idle) (hw : f.wrapped = false) (hl : f.len = 1) :
    ∃ b, exec (.gtxStep true) s = .next (gtxBare b rest s.quiet) := by
  obtain ⟨b, hb⟩ := List.length_eq_one_iff.mp hl
  have hread := memRead_gtx_head s.quiet f rest hq 0
  exact ⟨b, by simp [exec, execGtxStep, hq, gtxAccepted, hm, hw, hread, hb]⟩

/-- An RSP step at the second checksum digit retires the head frame (R243). -/
theorem exec_gtxStep_retires_wrapped {f : TaggedFrame} {rest : List TaggedFrame} (hq : s.gtx.q = f :: rest)
    (hm : s.gtx.mode = .ck) (hd : s.gtx.digit = true) :
    exec (.gtxStep true) s = .next (gtxLow f rest s.quiet) := by
  simp [exec, execGtxStep, hq, gtxAccepted, hm, hd]

theorem exec_ftxStep_lowers {f : Frame} (hq : s.ftx.q = [f]) (hp : s.ftx.pos = f.len + 3) :
    ∃ t, exec (.ftxStep true) s = .next t ∧ t.report.event = some .ftxRetired ∧ t.ftxWantWrite = false :=
  ⟨_, exec_ftxStep_retires hq hp, rfl, rfl⟩

theorem exec_gtxStep_lowers {f : TaggedFrame} (hq : s.gtx.q = [f])
    (hlast : (s.gtx.mode = .idle ∧ f.wrapped = false ∧ f.len = 1) ∨ (s.gtx.mode = .ck ∧ s.gtx.digit = true)) :
    ∃ t, exec (.gtxStep true) s = .next t ∧ t.report.event = some .gtxRetired ∧ t.gtxWantWrite = false := by
  obtain ⟨hm, hw, hl⟩ | ⟨hm, hd⟩ := hlast
  · obtain ⟨b, hb⟩ := exec_gtxStep_retires_bare hq hm hw hl
    exact ⟨_, hb, rfl, rfl⟩
  · exact ⟨_, exec_gtxStep_retires_wrapped hq hm hd, rfl, rfl⟩

end Falls

/-! ### What a change of a transmitter does to its queue -/

section Queues
variable {i : Instr} {s : State} {ev : Option Event}

/-- Only an enqueue fills an empty FET queue. -/
theorem ftxChange_fills {u : Ftx} (hc : FtxChange i s u ev) (hs : s.ftx.q = []) (hu : u.q ≠ []) : i = .ftxEnq := by
  cases hc with
  | same he => exact absurd (he ▸ hs) hu
  | reset _ ck he => exact absurd (he ▸ rfl) hu
  | push b _ _ he => subst he; exact absurd hs hu
  | enq hi => exact hi
  | step _ f rest hq => exact absurd (hq.symm.trans hs) (by simp)

/-- Only a retirement or a reset of the link empties the FET queue. -/
theorem ftxChange_empties {u : Ftx} (hc : FtxChange i s u ev) (hs : s.ftx.q ≠ []) (hu : u.q = []) :
    ev = some .ftxRetired ∨ i = .fetTeardown ∨ i = .sysReset := by
  cases hc with
  | same he => exact absurd (he ▸ hu) hs
  | reset hi => exact .inr hi.symm
  | push b _ _ he => subst he; exact absurd hu hs
  | enq _ _ he => simp [he] at hu
  | step _ f rest hq ha =>
    cases ha with
    | sof => exact absurd hu hs
    | esc1 => exact absurd hu hs
    | sent => exact absurd hu hs
    | eof => exact .inl rfl

/-- Only an enqueue fills an empty RSP queue. -/
theorem gtxChange_fills {u : Gtx} (hc : GtxChange i s u ev) (hs : s.gtx.q = []) (hu : u.q ≠ []) :
    i = .gtxEnqw ∨ ∃ b, i = .gtxEnqu b := by
  cases hc with
  | same he => exact absurd (he ▸ hs) hu
  | reset _ ck he => exact absurd (he ▸ rfl) hu
  | push b _ _ he => subst he; exact absurd hs hu
  | enqw hi => exact .inl hi
  | enqu b hi => exact .inr ⟨b, hi⟩
  | step _ f rest hq => exact absurd (hq.symm.trans hs) (by simp)

/-- Only a retirement or a reset of the link empties the RSP queue. -/
theorem gtxChange_empties {u : Gtx} (hc : GtxChange i s u ev) (hs : s.gtx.q ≠ []) (hu : u.q = []) :
    ev = some .gtxRetired ∨ i = .rspTeardown ∨ i = .sysReset := by
  cases hc with
  | same he => exact absurd (he ▸ hu) hs
  | reset hi => exact .inr hi.symm
  | push b _ _ he => subst he; exact absurd hu hs
  | enqw _ _ he => simp [he] at hu
  | enqu b _ _ he => simp [he] at hu
  | step _ f rest hq ha =>
    cases ha with
    | bare => exact .inl rfl
    | start => exact absurd hu hs
    | esc1 => exact absurd hu hs
    | sent => exact absurd hu hs
    | boundary => exact absurd hu hs
    | high => exact absurd hu hs
    | low => exact .inl rfl

end Queues

/-- Settles O51: the rises and falls are runs of single operations, and the 'only when' halves are the case analyses of what
an operation does to a transmitter. -/
theorem wantWriteFollowsTheQueue : Obligations.WantWriteFollowsTheQueue := by
  intro s
  refine ⟨ftxWantWrite_iff s, gtxWantWrite_iff s,
    fun hq hd => ⟨(ftxWantWrite_eq_false_iff s).mpr hq, exec_ftxEnq_raises hq hd⟩,
    fun hq hd => ⟨(gtxWantWrite_eq_false_iff s).mpr hq, exec_gtxEnqw_raises hq hd, exec_gtxEnqu_raises hq hd⟩,
    fun f hq hp => ⟨(ftxWantWrite_iff s).mpr (by simp [hq]), exec_ftxStep_lowers hq hp⟩,
    fun f hq hlast => ⟨(gtxWantWrite_iff s).mpr (by simp [hq]), exec_gtxStep_lowers hq hlast⟩,
    ⟨_, rfl, rfl, rfl⟩, ⟨_, rfl, rfl⟩, ⟨_, rfl, rfl⟩, fun i t h => ?_⟩
  simp only [ftxWantWrite_iff, gtxWantWrite_iff, ftxWantWrite_eq_false_iff, gtxWantWrite_eq_false_iff]
  exact ⟨ftxChange_fills (exec_ftxChange h), ftxChange_empties (exec_ftxChange h),
    gtxChange_fills (exec_gtxChange h), gtxChange_empties (exec_gtxChange h)⟩

/-! ### In flight -/

section Inflight
variable {i : Instr} {s t : State}

theorem ftxInflight_iff (s : State) : s.ftxInflight = true ↔ s.ftx.q ≠ [] ∧ s.ftx.pos ≠ 0 := by
  simp [State.ftxInflight]

theorem gtxInflight_iff (s : State) : s.gtxInflight = true ↔ s.gtx.mode ≠ .idle := by
  simp [State.gtxInflight]

/-- An accepted FET step ends with the head frame begun, unless it retires the frame. -/
theorem ftxAccept_pos {f : Frame} {rest : List Frame} {u u' : Ftx} {ev : Option Event}
    (ha : FtxAccept f rest u u' ev) :
    (ev = none ∧ u'.q = u.q ∧ u'.pos ≠ 0) ∨ (ev = some .ftxRetired ∧ u'.pos = 0) := by
  cases ha with
  | sof => exact .inl ⟨rfl, rfl, Nat.one_ne_zero⟩
  | esc1 b hb hlo => exact .inl ⟨rfl, rfl, Nat.one_le_iff_ne_zero.mp hlo⟩
  | sent => exact .inl ⟨rfl, rfl, Nat.succ_ne_zero _⟩
  | eof => exact .inr ⟨rfl, rfl⟩

/-- An accepted RSP step ends outside `IDLE`, unless it retires the frame. -/
theorem gtxAccept_mode {f : TaggedFrame} {rest : List TaggedFrame} {u u' : Gtx} {ev : Option Event}
    (ha : GtxAccept f rest u u' ev) :
    (ev = none ∧ u'.mode ≠ .idle) ∨ (ev = some .gtxRetired ∧ u'.mode = .idle) := by
  cases ha with
  | bare hm => exact .inr ⟨rfl, hm⟩
  | start => exact .inl ⟨rfl, by dsimp only; split <;> simp⟩
  | esc1 hm => exact .inl ⟨rfl, by simp [hm]⟩
  | sent hm => exact .inl ⟨rfl, by dsimp only [gtxAdvance]; split <;> simp [hm]⟩
  | boundary => exact .inl ⟨rfl, by simp⟩
  | high hm => exact .inl ⟨rfl, by simp [hm]⟩
  | low => exact .inr ⟨rfl, rfl⟩

theorem ftxInflight_after_step (h : exec (.ftxStep true) s = .next t) (hne : s.ftx.q ≠ []) :
    t.ftxInflight = (t.report.event != some .ftxRetired) := by
  cases exec_ftxChange h with
  | same _ _ _ hi => exact absurd (hi rfl) hne
  | reset hi => simp at hi
  | push b hi => simp at hi
  | enq hi => simp at hi
  | step _ f rest hq ha =>
    obtain ⟨hev, hq', hpos⟩ | ⟨hev, hpos⟩ := ftxAccept_pos ha
    · have hq'' : t.ftx.q ≠ [] := hq' ▸ hne
      simp [(ftxInflight_iff t).mpr ⟨hq'', hpos⟩, hev]
    · simp [State.ftxInflight, hpos, hev]

theorem gtxInflight_after_step (h : exec (.gtxStep true) s = .next t) (hne : s.gtx.q ≠ []) :
    t.gtxInflight = (t.report.event != some .gtxRetired) := by
  cases exec_gtxChange h with
  | same _ _ _ hi => exact absurd (hi rfl) hne
  | reset hi => simp at hi
  | push b hi => simp at hi
  | enqw hi => simp at hi
  | enqu b hi => simp at hi
  | step _ f rest hq ha =>
    obtain ⟨hev, hm⟩ | ⟨hev, hm⟩ := gtxAccept_mode ha
    · simp [(gtxInflight_iff t).mpr hm, hev]
    · simp [State.gtxInflight, hm, hev]

/-- Nothing but an FET step or a reset of the link changes whether it is in flight: a frame that arrives at an empty queue
finds the encoder at position 0 (R25). -/
theorem ftxInflight_of_other (hs : s.Ok) (h : exec i s = .next t) (hi : i ≠ .ftxStep true) (hr : i ≠ .sysReset)
    (hf : i ≠ .fetTeardown) : t.ftxInflight = s.ftxInflight := by
  obtain ⟨-, ⟨-, -, hempty, -⟩, -⟩ := hs
  cases exec_ftxChange h with
  | same hu => simp [State.ftxInflight, hu]
  | reset hi' => exact absurd hi' (not_or.mpr ⟨hr, hf⟩)
  | push b _ _ hu => simp [State.ftxInflight, hu]
  | enq _ _ hu =>
    cases hq : s.ftx.q with
    | nil => simp [State.ftxInflight, hu, hq, (hempty hq).1]
    | cons f rest => simp [State.ftxInflight, hu, hq]
  | step hi' => exact absurd hi' hi

/-- Nothing but an RSP step or a reset of the link changes whether it is in flight. -/
theorem gtxInflight_of_other (h : exec i s = .next t) (hi : i ≠ .gtxStep true) (hr : i ≠ .sysReset)
    (hp : i ≠ .rspTeardown) : t.gtxInflight = s.gtxInflight := by
  cases exec_gtxChange h with
  | same hu => simp [State.gtxInflight, hu]
  | reset hi' => exact absurd hi' (not_or.mpr ⟨hr, hp⟩)
  | push b _ _ hu => simp [State.gtxInflight, hu]
  | enqw _ _ hu => simp [State.gtxInflight, hu]
  | enqu b _ _ hu => simp [State.gtxInflight, hu]
  | step hi' => exact absurd hi' hi

end Inflight

/-- Settles O52: an accepted step leaves the unit busy or retires, a reset empties it, and nothing else moves position or
mode. -/
theorem inflightLastsFromFirstByteToRetirement : Obligations.InflightLastsFromFirstByteToRetirement := by
  intro i s t hs h
  refine ⟨?_, ?_, ?_, ?_, ftxInflight_of_other hs h, gtxInflight_of_other h⟩
  · rintro rfl; exact ftxInflight_after_step h
  · rintro rfl; exact gtxInflight_after_step h
  · rintro (rfl | rfl) <;> cases h <;> rfl
  · rintro (rfl | rfl) <;> cases h <;> rfl

end Sys2Proof.Machine
end

section
/-! No operation faults in a state that meets the invariants (R67, R313): the two faults are reads outside the ranges of
R24 and R31, and the one refusal is a counter index above 13 (R264). -/

namespace Sys2Proof.Machine

/-- Every index of R41 names a counter. -/
theorem Counter.ofIndex_isSome_of_le {k : Byte} (hk : k ≤ 13) : (Counter.ofIndex k).isSome = true := by
  have hlt : k.toNat ≤ 13 := hk
  unfold Counter.ofIndex
  interval_cases k.toNat <;> rfl

section Runs
variable {s : State}

/-- `STAT.READ` runs on an index that names a counter, and is refused on any other. -/
theorem execStatRead_cases (k : Byte) (s : State) :
    (∃ t, execStatRead k s = .next t) ∨
    (Counter.ofIndex k = none ∧ execStatRead k s = .refused (.reservedCounter k)) := by
  unfold execStatRead
  split
  · exact .inl ⟨_, rfl⟩
  · exact .inr ⟨‹_›, rfl⟩

/-- With `ftx_pos` at most len+3 of the head frame, `FTX.STEP` runs (R24, R151). -/
theorem execFtxStep_runs (hs : FtxOk s.params s.ftx) (r : Bool) : ∃ t, execFtxStep r s = .next t := by
  obtain ⟨-, heq⟩ | ⟨f, rest, hq, -, heq⟩ := execFtxStep_cases r s
  · exact ⟨_, heq⟩
  · obtain ⟨-, -, -, hhead⟩ := hs
    obtain ⟨hpos, -⟩ := hhead f (by simp [hq])
    have hcached : (ftxCache f s.quiet).ftx.pos = s.ftx.pos := by rw [ftxCache_ftx]; rfl
    rw [heq]
    obtain ⟨-, hrun⟩ | ⟨-, hrun⟩ | ⟨b, -, -, -, hrun⟩ | ⟨hgt, -⟩ := ftxAccepted_cases f rest (ftxCache f s.quiet)
    · exact ⟨_, hrun⟩
    · exact ⟨_, hrun⟩
    · exact ⟨_, hrun⟩
    · omega

/-- With a bare head frame of one byte and `gtx_idx` inside the payload in `DATA`, `GTX.STEP` runs (R31, R234). -/
theorem execGtxStep_runs (hs : GtxOk s.params s.gtx) (r : Bool) : ∃ t, execGtxStep r s = .next t := by
  obtain ⟨-, heq⟩ | ⟨f, rest, hq, -, heq⟩ := execGtxStep_cases r s
  · exact ⟨_, heq⟩
  · obtain ⟨-, -, hbare, -, -, hhead⟩ := hs
    obtain ⟨-, -, hdata, -⟩ := hhead f (by simp [hq])
    have hread (k : Nat) : s.quiet.memRead (.gtxQ 0) k = none → f.len ≤ k := by
      rw [memRead_gtx_head s.quiet f rest hq]
      exact List.getElem?_eq_none_iff.mp
    rw [heq]
    obtain ⟨-, -, hrun⟩ | ⟨b, -, -, -, hrun⟩ | ⟨b, -, -, hrun⟩ | ⟨-, hrun⟩ | ⟨-, hrun⟩ | ⟨-, hw, hnone, -⟩ |
      ⟨hm, hnone, -⟩ := gtxAccepted_cases f rest s.quiet
    · exact ⟨_, hrun⟩
    · exact ⟨_, hrun⟩
    · exact ⟨_, hrun⟩
    · exact ⟨_, hrun⟩
    · exact ⟨_, hrun⟩
    · have hlen := hbare f (by simp [hq]) hw
      have hle := hread 0 hnone
      omega
    · exact absurd (hread _ hnone) (Nat.not_le.mpr (hdata hm))

/-- Under the invariants every operation runs, but for `STAT.READ` of an index that names no counter, which is refused. -/
theorem exec_runs_or_refused (hs : s.Ok) (i : Instr) :
    (∃ t, exec i s = .next t) ∨
    ∃ k, i = .statRead k ∧ Counter.ofIndex k = none ∧ exec i s = .refused (.reservedCounter k) := by
  obtain ⟨-, hftx, -, -, hgtx⟩ := hs
  cases i using cases_by_reception with
  | statRead k =>
    obtain hrun | ⟨hk, href⟩ := execStatRead_cases k s
    · exact .inl hrun
    · exact .inr ⟨k, rfl, hk, href⟩
  | ftxStep r => exact .inl (execFtxStep_runs hftx r)
  | gtxStep r => exact .inl (execGtxStep_runs hgtx r)
  | fetByte i b hb => exact .inl ⟨_, exec_of_fetWireByte s hb⟩
  | rspByte i b hb => exact .inl ⟨_, exec_of_rspWireByte s hb⟩
  | _ => exact .inl ⟨_, rfl⟩

/-- Under the invariants no operation faults. -/
theorem exec_ne_fault (hs : s.Ok) (i : Instr) (f : Fault) : exec i s ≠ .fault f := by
  obtain ⟨t, h⟩ | ⟨k, -, -, h⟩ := exec_runs_or_refused hs i <;> simp [h]

/-- Under the invariants every well-formed operation runs: a well-formed index is at most 13 (R106). -/
theorem exec_runs (hs : s.Ok) {i : Instr} (hi : i.WellFormed) : ∃ t, exec i s = .next t := by
  obtain h | ⟨k, rfl, hnone, -⟩ := exec_runs_or_refused hs i
  · exact h
  · have hk : k ≤ 13 := of_decide_eq_true hi
    simpa [hnone] using Counter.ofIndex_isSome_of_le hk

end Runs

/-- Settles O45: a step empties the report, refuses a reserved word, or runs one operation, which does not fault. -/
theorem everyOperationRunsInEveryOkState : Obligations.EveryOperationRunsInEveryOkState := by
  refine fun s hs => ⟨fun i hi => exec_runs hs hi, fun f => ?_⟩
  cases hstim : s.stim with
  | nil => simp [step_of_stim_nil hstim]
  | cons x rest =>
    cases hd : decode x with
    | ok i =>
      rw [step_of_decode_ok hstim hd]
      exact exec_ne_fault (s := { s with stim := rest }) hs i f
    | error e => simp [step, fetch_of_stim_cons hstim, hd]

end Sys2Proof.Machine
end

section
/-! Queues are first in, first out, and no queued frame changes (R69, R71, R75). -/

namespace Sys2Proof.Machine

section Fifo
variable {i : Instr} {s t : State}

/-- Short of reset and teardown the FET queue stays, gains the staged payload at its tail, or loses its head in the step
that emits the closing sentinel. -/
theorem exec_ftx_q (h : exec i s = .next t) (hr : i ≠ .sysReset) (hf : i ≠ .fetTeardown) :
    t.ftx.q = s.ftx.q ∨ (i = .ftxEnq ∧ t.ftx.q = s.ftx.q ++ [⟨s.ftx.stage⟩]) ∨
    (i = .ftxStep true ∧ ∃ f, s.ftx.q = f :: t.ftx.q ∧ s.ftx.pos = f.len + 3 ∧
      t.report = { result := .wire 0x7E, event := some .ftxRetired }) := by
  have hc := exec_ftxChange h
  generalize t.ftx = u, t.report.event = ev at hc ⊢
  cases hc with
  | same he => exact .inl (by rw [he])
  | reset hi => exact absurd hi (not_or.mpr ⟨hr, hf⟩)
  | push b _ _ he => exact .inl (by rw [he])
  | enq hi _ he => exact .inr (.inl ⟨hi, by rw [he]⟩)
  | step hi f rest hq ha =>
    cases ha with
    | sof => exact .inl rfl
    | esc1 => exact .inl rfl
    | sent => exact .inl rfl
    | eof hpos =>
      subst hi
      cases (exec_ftxStep_retires hq hpos).symm.trans h
      exact .inr (.inr ⟨rfl, f, hq, hpos, by simp [ftxEof, ftxCache_report, Report.empty, Config.fetSentinel]⟩)

/-- An RSP step keeps the queue, or retires the head frame: a bare one with its byte (R235), a wrapped one with its second
checksum digit (R243). -/
theorem exec_gtxStep_q (h : exec (.gtxStep true) s = .next t) :
    t.gtx.q = s.gtx.q ∨ ∃ f b, s.gtx.q = f :: t.gtx.q ∧
      ((s.gtx.mode = .idle ∧ f.wrapped = false) ∨ (s.gtx.mode = .ck ∧ s.gtx.digit = true)) ∧
      t.report = { result := .wire b, event := some .gtxRetired } := by
  obtain ⟨-, heq⟩ | ⟨f, rest, hq, -, heq⟩ := execGtxStep_cases true s
  · cases heq.symm.trans h
    exact .inl rfl
  · have hrun : gtxAccepted f rest s.quiet = .next t := heq.symm.trans h
    obtain ⟨-, -, heq⟩ | ⟨b, hm, hw, -, heq⟩ | ⟨b, -, -, heq⟩ | ⟨-, heq⟩ | ⟨hm, heq⟩ | ⟨-, -, -, heq⟩ |
      ⟨-, -, heq⟩ := gtxAccepted_cases f rest s.quiet <;> cases heq.symm.trans hrun
    · exact .inl rfl
    · exact .inr ⟨f, b, hq, .inl ⟨hm, hw⟩, rfl⟩
    · exact .inl (by unfold gtxData; split_ifs <;> rfl)
    · exact .inl rfl
    · split_ifs with hd
      · exact .inr ⟨f, hexLow s.gtx.ck, hq, .inr ⟨hm, hd⟩, rfl⟩
      · exact .inl rfl

/-- Short of reset and teardown the RSP queue stays, gains one frame at its tail, or loses its head in the step that emits
the head's last wire byte. -/
theorem exec_gtx_q (h : exec i s = .next t) (hr : i ≠ .sysReset) (hp : i ≠ .rspTeardown) :
    t.gtx.q = s.gtx.q ∨ (i = .gtxEnqw ∧ t.gtx.q = s.gtx.q ++ [⟨true, s.gtx.stage⟩]) ∨
    (∃ b, i = .gtxEnqu b ∧ t.gtx.q = s.gtx.q ++ [⟨false, [b]⟩]) ∨
    (i = .gtxStep true ∧ ∃ f b, s.gtx.q = f :: t.gtx.q ∧
      ((s.gtx.mode = .idle ∧ f.wrapped = false) ∨ (s.gtx.mode = .ck ∧ s.gtx.digit = true)) ∧
      t.report = { result := .wire b, event := some .gtxRetired }) := by
  cases exec_gtxChange h with
  | same he => exact .inl (by rw [he])
  | reset hi => exact absurd hi (not_or.mpr ⟨hr, hp⟩)
  | push b _ _ he => exact .inl (by rw [he])
  | enqw hi _ he => exact .inr (.inl ⟨hi, by rw [he]⟩)
  | enqu b hi _ he => exact .inr (.inr (.inl ⟨b, hi, by rw [he]⟩))
  | step hi =>
    subst hi
    exact (exec_gtxStep_q h).imp_right fun hret => .inr (.inr ⟨rfl, hret⟩)

end Fifo

/-- Settles O50: what an operation does to a transmitter, read off on the queue. -/
theorem queuesAreFifoAndImmutable : Obligations.QueuesAreFifoAndImmutable :=
  fun _ _ _ h hr => ⟨exec_ftx_q h hr, exec_gtx_q h hr⟩

end Sys2Proof.Machine
end

section
/-! Operations of different units commute (R70, R316): an operation reads its own unit alone, and changes it alone. -/

namespace Sys2Proof.Machine

/-! ### States that one unit cannot tell apart -/

/-- Unit `U` sees the same in `s` and `t`: the parameters, its own state and counters, and what has been reported. -/
structure AlikeTo (U : BlockUnit) (s t : State) : Prop where
  params : t.params = s.params
  crcReg : U = .crc → t.crcReg = s.crcReg
  sumReg : U = .sum → t.sumReg = s.sumReg
  ftx : U = .ftx → t.ftx = s.ftx
  frx : U = .frx → t.frx = s.frx
  grx : U = .grx → t.grx = s.grx
  gtx : U = .gtx → t.gtx = s.gtx
  counters : ∀ c, counterUnit c = U → t.stats.get c = s.stats.get c
  report : t.report = s.report

/-- Two answers are next states alike to `U`, or the same fault or refusal. -/
inductive AnswersAlikeTo (U : BlockUnit) : Answer → Answer → Prop where
  | next {s t : State} (h : AlikeTo U s t) : AnswersAlikeTo U (.next s) (.next t)
  | fault (f : Fault) : AnswersAlikeTo U (.fault f) (.fault f)
  | refused (r : Refusal) : AnswersAlikeTo U (.refused r) (.refused r)

/-- A change local to one unit is not seen by another. -/
theorem LocalTo.alikeTo {U V : BlockUnit} {s t : State} (h : LocalTo U s t) (hne : U ≠ V) :
    AlikeTo V s.quiet t.quiet where
  params := h.params
  crcReg hV := h.crcReg (hV ▸ hne)
  sumReg hV := h.sumReg (hV ▸ hne)
  ftx hV := h.ftx (hV ▸ hne)
  frx hV := h.frx (hV ▸ hne)
  grx hV := h.grx (hV ▸ hne)
  gtx hV := h.gtx (hV ▸ hne)
  counters c hc := h.counters c (by rw [hc]; exact hne.symm)
  report := rfl

namespace AlikeTo

variable {U : BlockUnit} {s t : State}

theorem symm (h : AlikeTo U s t) : AlikeTo U t s where
  params := h.params.symm
  crcReg hU := (h.crcReg hU).symm
  sumReg hU := (h.sumReg hU).symm
  ftx hU := (h.ftx hU).symm
  frx hU := (h.frx hU).symm
  grx hU := (h.grx hU).symm
  gtx hU := (h.gtx hU).symm
  counters c hc := (h.counters c hc).symm
  report := h.report.symm

theorem answer (h : AlikeTo U s t) (r : Result) : AlikeTo U (s.answer r) (t.answer r) :=
  { h with report := by simp [h.report] }

theorem notify (h : AlikeTo U s t) (e : Event) : AlikeTo U (s.notify e) (t.notify e) :=
  { h with report := by simp [h.report] }

theorem count (h : AlikeTo U s t) (c : Counter) (k : Nat) : AlikeTo U (s.count c k) (t.count c k) :=
  { h with counters := fun d hd => by simp [get_bump, h.counters d hd] }

theorem countFrame (h : AlikeTo U s t) (f b : Counter) (n : Nat) :
    AlikeTo U (s.countFrame f b n) (t.countFrame f b n) :=
  (h.count f 1).count b n

theorem setCrcReg (h : AlikeTo U s t) (v : Half) : AlikeTo U { s with crcReg := v } { t with crcReg := v } :=
  { h with crcReg := fun _ => rfl }

theorem setSumReg (h : AlikeTo U s t) (v : Byte) : AlikeTo U { s with sumReg := v } { t with sumReg := v } :=
  { h with sumReg := fun _ => rfl }

theorem setFtx (h : AlikeTo U s t) (u : Ftx) : AlikeTo U { s with ftx := u } { t with ftx := u } :=
  { h with ftx := fun _ => rfl }

theorem setFrx (h : AlikeTo U s t) (u : Frx) : AlikeTo U { s with frx := u } { t with frx := u } :=
  { h with frx := fun _ => rfl }

theorem setGrx (h : AlikeTo U s t) (u : Grx) : AlikeTo U { s with grx := u } { t with grx := u } :=
  { h with grx := fun _ => rfl }

theorem setGtx (h : AlikeTo U s t) (u : Gtx) : AlikeTo U { s with gtx := u } { t with gtx := u } :=
  { h with gtx := fun _ => rfl }

theorem raise (h : AlikeTo U s t) (e : Err) (n : Nat) : AlikeTo U (s.raise e n) (t.raise e n) := by
  unfold State.raise
  split
  · exact ((h.countFrame _ _ n).setFrx _).notify _
  · exact ((h.countFrame _ _ n).setGrx _).notify _

/-! ### The receive steps -/

theorem frxStore (h : AlikeTo .frx s t) (v : Byte) : AlikeTo .frx (frxStore v s) (frxStore v t) := by
  have hcap : t.params.fetRxCap = s.params.fetRxCap := congrArg _ h.params
  unfold Machine.frxStore
  rw [h.frx rfl, hcap]
  split_ifs
  · exact h.raise _ _
  · exact h.setFrx _

theorem frxClose (h : AlikeTo .frx s t) : AlikeTo .frx (frxClose s) (frxClose t) := by
  unfold Machine.frxClose frxValidate
  rw [h.frx rfl]
  split_ifs
  · exact h.raise _ _
  · exact h
  · exact h.raise _ _
  · exact ((h.countFrame _ _ _).setFrx _).notify _
  · exact h.raise _ _

theorem frxReceive (h : AlikeTo .frx s t) (b : Byte) : AlikeTo .frx (frxReceive b s) (frxReceive b t) := by
  unfold Machine.frxReceive
  rw [h.frx rfl]
  split <;> split_ifs
  · exact h.setFrx _
  · exact h
  · exact h.frxClose
  · exact (h.setFrx _).frxStore _
  · exact h.setFrx _
  · exact h.frxStore _

theorem grxIdle (h : AlikeTo .grx s t) (b : Byte) : AlikeTo .grx (grxIdle b s) (grxIdle b t) := by
  unfold Machine.grxIdle
  rw [h.grx rfl]
  split_ifs
  · exact h.setGrx _
  · exact (h.count _ _).notify _
  · exact (h.count _ _).notify _
  · exact h

theorem grxStore (h : AlikeTo .grx s t) (v : Byte) : AlikeTo .grx (grxStore v s) (grxStore v t) := by
  have hcap : t.params.rspRxCap = s.params.rspRxCap := congrArg _ h.params
  unfold Machine.grxStore
  rw [h.grx rfl, hcap]
  split_ifs
  · exact h.raise _ _
  · exact h.setGrx _

theorem grxPayload (h : AlikeTo .grx s t) (b : Byte) : AlikeTo .grx (grxPayload b s) (grxPayload b t) := by
  unfold Machine.grxPayload grxData
  rw [h.grx rfl]
  split_ifs
  · exact h.setGrx _
  · exact h.setGrx _
  · exact (h.setGrx _).grxStore _
  · exact h.grxStore _

theorem grxCksum (h : AlikeTo .grx s t) (b : Byte) : AlikeTo .grx (grxCksum b s) (grxCksum b t) := by
  unfold Machine.grxCksum grxVerdict
  rw [h.grx rfl]
  split
  · exact h.raise _ _
  · split_ifs
    · exact ((h.countFrame _ _ _).setGrx _).notify _
    · exact h.raise _ _
    · exact h.setGrx _

theorem grxReceive (h : AlikeTo .grx s t) (b : Byte) : AlikeTo .grx (grxReceive b s) (grxReceive b t) := by
  unfold Machine.grxReceive
  rw [h.grx rfl]
  split
  · exact h.grxIdle b
  · exact h.grxPayload b
  · exact h.grxCksum b

/-! ### The transmit steps -/

theorem ftxAccepted (h : AlikeTo .ftx s t) (f : Frame) (rest : List Frame) :
    AnswersAlikeTo .ftx (ftxAccepted f rest s) (ftxAccepted f rest t) := by
  unfold Machine.ftxAccepted ftxSof ftxEof ftxEsc1 ftxEsc2 ftxPlain
  rw [h.ftx rfl]
  split
  · exact .next ((h.answer _).setFtx _)
  · split
    · exact .next ((((h.answer _).setFtx _).countFrame _ _ _).notify _)
    · split
      · split_ifs <;> exact .next ((h.answer _).setFtx _)
      · exact .fault _

theorem ftxCache (h : AlikeTo .ftx s t) (f : Frame) : AlikeTo .ftx (ftxCache f s) (ftxCache f t) := by
  unfold Machine.ftxCache
  rw [h.ftx rfl]
  split_ifs
  · exact h
  · exact h.setFtx _

theorem gtxData (h : AlikeTo .gtx s t) (f : TaggedFrame) (b : Byte) :
    AlikeTo .gtx (gtxData f b s) (gtxData f b t) := by
  unfold Machine.gtxData
  rw [h.gtx rfl]
  split_ifs <;> exact (h.answer _).setGtx _

theorem gtxAccepted (h : AlikeTo .gtx s t) (f : TaggedFrame) (rest : List TaggedFrame) :
    AnswersAlikeTo .gtx (gtxAccepted f rest s) (gtxAccepted f rest t) := by
  have hread (k : Nat) : t.memRead (.gtxQ 0) k = s.memRead (.gtxQ 0) k := by
    simp only [State.memRead, State.bytes, h.gtx rfl]
  unfold Machine.gtxAccepted gtxStart gtxBare gtxBoundary gtxLow gtxHigh
  rw [h.gtx rfl]
  simp only [hread]
  split
  · split
    · exact .next ((h.answer _).setGtx _)
    · split
      · exact .next ((((h.answer _).setGtx _).countFrame _ _ _).notify _)
      · exact .fault _
  · split
    · exact .next (h.gtxData f _)
    · exact .fault _
  · exact .next ((h.answer _).setGtx _)
  · split_ifs
    · exact .next ((((h.answer _).setGtx _).countFrame _ _ _).notify _)
    · exact .next ((h.answer _).setGtx _)

end AlikeTo

/-! ### All operations -/

section Exec
variable {s t : State}

theorem execFtxPush_alikeTo (h : AlikeTo .ftx s.quiet t.quiet) (b : Byte) :
    AnswersAlikeTo .ftx (execFtxPush b s) (execFtxPush b t) := by
  have hftx : t.ftx = s.ftx := h.ftx rfl
  have hmax : t.params.maxTxPayload = s.params.maxTxPayload := congrArg _ h.params
  unfold execFtxPush
  rw [hftx, hmax]
  split_ifs
  · exact .next (h.answer _)
  · exact .next ((h.setFtx _).answer _)

theorem execFtxEnq_alikeTo (h : AlikeTo .ftx s.quiet t.quiet) :
    AnswersAlikeTo .ftx (execFtxEnq s) (execFtxEnq t) := by
  have hftx : t.ftx = s.ftx := h.ftx rfl
  have hdepth : t.params.fetTxqDepth = s.params.fetTxqDepth := congrArg _ h.params
  unfold execFtxEnq
  rw [hftx, hdepth]
  split_ifs
  · exact .next (h.answer _)
  · exact .next ((h.setFtx _).answer _)

theorem execFtxStep_alikeTo (h : AlikeTo .ftx s.quiet t.quiet) (r : Bool) :
    AnswersAlikeTo .ftx (execFtxStep r s) (execFtxStep r t) := by
  have hftx : t.ftx = s.ftx := h.ftx rfl
  unfold execFtxStep
  rw [hftx]
  split
  · exact .next (h.answer _)
  · split_ifs
    · exact (h.ftxCache _).ftxAccepted _ _
    · exact .next (h.answer _)

theorem execGtxPush_alikeTo (h : AlikeTo .gtx s.quiet t.quiet) (b : Byte) :
    AnswersAlikeTo .gtx (execGtxPush b s) (execGtxPush b t) := by
  have hgtx : t.gtx = s.gtx := h.gtx rfl
  have hmax : t.params.maxTxPayload = s.params.maxTxPayload := congrArg _ h.params
  unfold execGtxPush
  rw [hgtx, hmax]
  split_ifs
  · exact .next (h.answer _)
  · exact .next ((h.setGtx _).answer _)

theorem execGtxEnqw_alikeTo (h : AlikeTo .gtx s.quiet t.quiet) :
    AnswersAlikeTo .gtx (execGtxEnqw s) (execGtxEnqw t) := by
  have hgtx : t.gtx = s.gtx := h.gtx rfl
  have hdepth : t.params.rspTxqDepth = s.params.rspTxqDepth := congrArg _ h.params
  unfold execGtxEnqw
  rw [hgtx, hdepth]
  split_ifs
  · exact .next (h.answer _)
  · exact .next ((h.setGtx _).answer _)

theorem execGtxEnqu_alikeTo (h : AlikeTo .gtx s.quiet t.quiet) (b : Byte) :
    AnswersAlikeTo .gtx (execGtxEnqu b s) (execGtxEnqu b t) := by
  have hgtx : t.gtx = s.gtx := h.gtx rfl
  have hdepth : t.params.rspTxqDepth = s.params.rspTxqDepth := congrArg _ h.params
  unfold execGtxEnqu
  rw [hgtx, hdepth]
  split_ifs
  · exact .next (h.answer _)
  · exact .next ((h.setGtx _).answer _)

theorem execGtxStep_alikeTo (h : AlikeTo .gtx s.quiet t.quiet) (r : Bool) :
    AnswersAlikeTo .gtx (execGtxStep r s) (execGtxStep r t) := by
  have hgtx : t.gtx = s.gtx := h.gtx rfl
  unfold execGtxStep
  rw [hgtx]
  split
  · exact .next (h.answer _)
  · split_ifs
    · exact h.gtxAccepted _ _
    · exact .next (h.answer _)

/-- A unit's operation answers states alike to the unit with answers alike to it: it reads nothing else (R70, R316). -/
theorem exec_alikeTo {i : Instr} (hi : unitOf i ≠ .sys) (h : AlikeTo (unitOf i) s.quiet t.quiet) :
    AnswersAlikeTo (unitOf i) (exec i s) (exec i t) := by
  cases i using cases_by_reception with
  | sysReset => exact absurd rfl hi
  | fetTeardown => exact absurd rfl hi
  | rspTeardown => exact absurd rfl hi
  | statRead k => exact absurd rfl hi
  | crcInit => exact .next (h.setCrcReg _)
  | crcUpd b =>
    have hreg : t.crcReg = s.crcReg := h.crcReg rfl
    simp only [exec, execCrcUpd, hreg]
    exact .next (h.setCrcReg _)
  | crcFin =>
    have hreg : t.crcReg = s.crcReg := h.crcReg rfl
    simp only [exec, execCrcFin, hreg]
    exact .next (h.answer _)
  | sumInit => exact .next (h.setSumReg _)
  | sumUpd b =>
    have hreg : t.sumReg = s.sumReg := h.sumReg rfl
    simp only [exec, execSumUpd, hreg]
    exact .next (h.setSumReg _)
  | sumFin =>
    have hreg : t.sumReg = s.sumReg := h.sumReg rfl
    simp only [exec, execSumFin, hreg]
    exact .next (h.answer _)
  | ftxPush b => exact execFtxPush_alikeTo h b
  | ftxEnq => exact execFtxEnq_alikeTo h
  | ftxStep r => exact execFtxStep_alikeTo h r
  | gtxPush b => exact execGtxPush_alikeTo h b
  | gtxEnqw => exact execGtxEnqw_alikeTo h
  | gtxEnqu b => exact execGtxEnqu_alikeTo h b
  | gtxStep r => exact execGtxStep_alikeTo h r
  | fetByte i b hb =>
    have hu : unitOf i = .frx := (fetWireByte_isSome_iff i).mp (by simp [hb])
    rw [hu] at h ⊢
    rw [exec_of_fetWireByte s hb, exec_of_fetWireByte t hb]
    exact .next (h.frxReceive b)
  | rspByte i b hb =>
    have hu : unitOf i = .grx := (rspWireByte_isSome_iff i).mp (by simp [hb])
    rw [hu] at h ⊢
    rw [exec_of_rspWireByte s hb, exec_of_rspWireByte t hb]
    exact .next (h.grxReceive b)

/-- What a unit's operation answers in one state it answers in every state alike to the unit. -/
theorem exec_next_alikeTo {i : Instr} {a : State} (hi : unitOf i ≠ .sys) (h : AlikeTo (unitOf i) s.quiet t.quiet)
    (ha : exec i s = .next a) : ∃ b, exec i t = .next b ∧ AlikeTo (unitOf i) a b := by
  have halike := exec_alikeTo hi h
  rw [ha] at halike
  generalize exec i t = y at halike ⊢
  cases halike with
  | next hab => exact ⟨_, rfl, hab⟩

end Exec

/-- An operation of a unit is local to it; the system operations are those of no unit (R104). -/
theorem exec_localTo_of_unit {i : Instr} {s t : State} (hi : unitOf i ≠ .sys) (h : exec i s = .next t) :
    LocalTo (unitOf i) s t :=
  exec_localTo h (by rintro rfl; exact hi rfl) (by rintro rfl; exact hi rfl) (by rintro rfl; exact hi rfl)

/-- Counters that all read the same are the same. -/
theorem Stats.ext_get {a b : Stats} (h : ∀ c, a.get c = b.get c) : a = b := by
  cases a; cases b
  simp only [Stats.mk.injEq]
  exact ⟨h .fetRxFrames, h .fetRxBytes, h .fetTxFrames, h .fetTxBytes, h .fetDiscFrames, h .fetDiscBytes,
    h .rspRxFrames, h .rspRxBytes, h .rspTxFrames, h .rspTxBytes, h .rspDiscFrames, h .rspDiscBytes, h .rspAcks,
    h .rspNaks⟩

/-- One piece of state, owned by `W`, around the square of a change local to `U` and a change local to `V`, made in either
order: the two ends `d` and `b` hold the same, where `U` changes `c` as it changed `s`, and `V` changes `s` as it changed
`a`. -/
theorem eq_of_square {α : Type} {U V W : BlockUnit} {s a b c d : α} (hne : U ≠ V) (hsa : U ≠ W → a = s)
    (hab : V ≠ W → b = a) (hsc : V ≠ W → c = s) (hcd : U ≠ W → d = c) (had : U = W → d = a) (hbc : V = W → c = b) :
    d = b := by
  by_cases hU : U = W
  · exact (had hU).trans (hab (hU ▸ hne.symm)).symm
  · by_cases hV : V = W
    · exact (hcd hU).trans (hbc hV)
    · calc d = c := hcd hU
        _ = s := hsc hV
        _ = a := (hsa hU).symm
        _ = b := (hab hV).symm

/-- The two ends of the square are the same but for the report. -/
theorem silent_eq_of_square {U V : BlockUnit} {s a b c d : State} (hne : U ≠ V) (hsa : LocalTo U s a)
    (hab : LocalTo V a b) (hsc : LocalTo V s c) (hcd : LocalTo U c d) (had : AlikeTo U a d) (hbc : AlikeTo V b c) :
    d.silent = b.silent := by
  have hstats : d.stats = b.stats := Stats.ext_get fun k =>
    eq_of_square (W := counterUnit k) hne (hsa.counters k ·.symm) (hab.counters k ·.symm) (hsc.counters k ·.symm)
      (hcd.counters k ·.symm) (had.counters k ·.symm) (hbc.counters k ·.symm)
  simp only [State.silent, State.mk.injEq]
  exact ⟨hcd.params.trans hbc.params,
    eq_of_square hne hsa.crcReg hab.crcReg hsc.crcReg hcd.crcReg had.crcReg hbc.crcReg,
    eq_of_square hne hsa.sumReg hab.sumReg hsc.sumReg hcd.sumReg had.sumReg hbc.sumReg,
    eq_of_square hne hsa.ftx hab.ftx hsc.ftx hcd.ftx had.ftx hbc.ftx,
    eq_of_square hne hsa.frx hab.frx hsc.frx hcd.frx had.frx hbc.frx,
    eq_of_square hne hsa.grx hab.grx hsc.grx hcd.grx had.grx hbc.grx,
    eq_of_square hne hsa.gtx hab.gtx hsc.gtx hcd.gtx had.gtx hbc.gtx,
    hstats,
    (hcd.stim.trans hsc.stim).trans (hab.stim.trans hsa.stim).symm,
    trivial⟩

/-- Settles O46: the second operation sees in the first one's next state what it sees without it, and the first sees in
the second's what it saw. -/
theorem operationsOfDifferentUnitsCommute : Obligations.OperationsOfDifferentUnitsCommute := by
  intro i j s a b hi hj hne ha hb
  have hsa := exec_localTo_of_unit hi ha
  have hab := exec_localTo_of_unit hj hb
  obtain ⟨c, hc, hbc⟩ := exec_next_alikeTo hj (hsa.alikeTo hne).symm hb
  have hsc := exec_localTo_of_unit hj hc
  obtain ⟨d, hd, had⟩ := exec_next_alikeTo hi (hsc.alikeTo hne.symm) ha
  exact ⟨c, d, hc, hd, silent_eq_of_square hne hsa hab hsc (exec_localTo_of_unit hi hd) had hbc, hbc.report,
    had.report⟩

end Sys2Proof.Machine
end

section
/-! Draining a transmitter (R69, R108, R161, R244): what a run of accepted steps sends, byte by byte, then frame by frame,
then over the whole queue. -/

namespace Sys2Proof.Machine

/-! ### Runs of one operation -/

/-- No operation reads what the last step reported (log entry 4). -/
theorem exec_silent (i : Instr) (s : State) : exec i s.silent = exec i s := by
  cases i using cases_by_reception with
  | fetByte i b hb => rw [exec_of_fetWireByte _ hb, exec_of_fetWireByte _ hb]; rfl
  | rspByte i b hb => rw [exec_of_rspWireByte _ hb, exec_of_rspWireByte _ hb]; rfl
  | _ => rfl

/-- Two states that differ in the report alone answer the same. -/
theorem exec_congr_silent {s t : State} (h : s.silent = t.silent) (i : Instr) : exec i s = exec i t := by
  rw [← exec_silent i s, h, exec_silent i t]

/-- The report of a step that emits `b` and raises no event. -/
def wired (b : Byte) : Report := { result := .wire b, event := none }

/-- Operation `i`, run from `s` as often as `rs` is long, reports `rs` and ends in `t` but for the report. -/
inductive Sends (i : Instr) : State → List Report → State → Prop where
  | done {s t : State} (h : s.silent = t.silent) : Sends i s [] t
  | step {s u t : State} {rs : List Report} (h : exec i s = .next u) (hr : Sends i u rs t) :
      Sends i s (u.report :: rs) t

namespace Sends

variable {i : Instr} {s t u : State} {r : Report} {rs rs' : List Report}

theorem of_exec (h : exec i s = .next u) (hr : u.report = r) (ht : u.silent = t.silent) : Sends i s [r] t :=
  hr ▸ .step h (.done ht)

theorem congr_silent (h : s.silent = t.silent) (ht : Sends i t rs u) : Sends i s rs u := by
  cases ht with
  | done h' => exact .done (h.trans h')
  | step he hr => exact .step ((exec_congr_silent h i).trans he) hr

theorem trans (h : Sends i s rs t) (h' : Sends i t rs' u) : Sends i s (rs ++ rs') u := by
  induction h with
  | done hs => exact h'.congr_silent hs
  | step he _ ih => exact .step he (ih h')

end Sends

/-- Draining does not read the last report. -/
theorem drain_congr_silent {s t : State} (h : s.silent = t.silent) (i : Instr) (n : Nat) :
    drain i n s = drain i n t := by
  cases n with
  | zero => rfl
  | succ n => simp only [drain, exec_congr_silent h i]

/-- A run that reports only wire bytes is the beginning of a drain. -/
theorem drain_of_sends {i : Instr} {s t u : State} {rs : List Report} (h : Sends i s rs t) {bs cs : List Byte}
    (hrs : rs.map Report.result = bs.map Result.wire) {n : Nat} (ht : drain i n t = some (u, cs)) :
    drain i (rs.length + n) s = some (u, bs ++ cs) := by
  induction h generalizing bs with
  | done hs =>
    obtain rfl : bs = [] := by simpa using hrs.symm
    simpa using (drain_congr_silent hs i n).trans ht
  | step he _ ih =>
    cases bs with
    | nil => simp at hrs
    | cons b bs =>
      obtain ⟨hb, hbs⟩ := List.cons.inj hrs
      simp [Nat.succ_add, drain, he, hb, ih hbs ht]

/-- A step that reports `none` ends a drain. -/
theorem drain_of_noByte {i : Instr} {s t : State} (h : exec i s = .next t) (hr : t.report.result = .noByte) :
    drain i 1 s = some (t, []) := by
  simp [drain, h, hr]

/-- Operation `i` on a queue `q` whose frames `enc` encodes: where it reports `none` on an empty queue, and from `Inv`
sends the head frame, counts it on `sent` and returns to `Inv`, it drains the queue. -/
theorem drain_queue {α : Type} {i : Instr} {Inv : State → Prop} {q : State → List α} {enc : α → List Byte}
    {sent : State → Nat}
    (hempty : ∀ s, q s = [] → ∃ t, exec i s = .next t ∧ t.report.result = .noByte ∧ q t = [] ∧ sent t = sent s)
    (hframe : ∀ s f rest, Inv s → q s = f :: rest → ∃ rs t, Sends i s rs t ∧
      rs.map Report.result = (enc f).map Result.wire ∧ Inv t ∧ q t = rest ∧ sent t = sent s + 1)
    (s : State) (hs : Inv s) :
    ∃ fuel t, drain i fuel s = some (t, (q s).flatMap enc) ∧ q t = [] ∧ sent t = sent s + (q s).length := by
  generalize hq : q s = fs
  induction fs generalizing s with
  | nil =>
    obtain ⟨t, ht, hr, hqt, hn⟩ := hempty s hq
    exact ⟨1, t, drain_of_noByte ht hr, hqt, hn⟩
  | cons f rest ih =>
    obtain ⟨rs, u, hsends, hrs, hu, hqu, hnu⟩ := hframe s f rest hs hq
    obtain ⟨n, t, ht, hqt, hnt⟩ := ih u hu hqu
    refine ⟨rs.length + n, t, drain_of_sends hsends hrs ht, hqt, ?_⟩
    rw [hnt, hnu, List.length_cons, Nat.add_assoc, Nat.add_comm 1]

/-! ### One FET frame (R154 to R161) -/

/-- `ftx_byte` at position `k` + 1 is byte `k` of what the frame protects on the wire (R80, R153). -/
theorem ftxByte_succ (p : List Byte) (k : Nat) : ftxByte p (crc16 p) (k + 1) = (fetBody p)[k]? := by
  unfold ftxByte fetBody
  rw [if_neg (Nat.succ_ne_zero k), Nat.add_sub_cancel]
  split_ifs with hlt hlo hhi
  · rw [List.getElem?_append_left hlt]
  · obtain rfl : k = p.length := Nat.succ.inj hlo
    simp
  · obtain rfl : k = p.length + 1 := Nat.succ.inj hhi
    simp
  · rw [List.getElem?_eq_none]
    simp only [List.length_append, List.length_cons, List.length_nil]
    omega

section Fet
variable {s : State} {f : Frame} {rest : List Frame}

/-- `s` with head frame `f` in flight at position `p`, its checksum cached and no escape pending. -/
def State.atFetPos (s : State) (f : Frame) (p : Nat) : State :=
  { s with ftx := { s.ftx with pos := p, esc := false, ck := crc16 f.payload, ckv := true } }

/-- `s` after FET frame `f` has been retired and `rest` is left queued. -/
def State.fetRetired (s : State) (f : Frame) (rest : List Frame) : State :=
  { s with
    ftx := { s.ftx with q := rest, pos := 0, esc := false, ck := crc16 f.payload, ckv := false }
    stats := { s.stats with fetTxFrames := s.stats.fetTxFrames + 1, fetTxBytes := s.stats.fetTxBytes + f.len } }

/-- With a frame queued, `FTX.STEP 1` is an accepted step on it. -/
theorem exec_ftxStep_of_cons (hq : s.ftx.q = f :: rest) :
    exec (.ftxStep true) s = ftxAccepted f rest (ftxCache f s.quiet) := by
  simp [exec, execFtxStep, hq]

/-- The cache already valid stays (R152). -/
theorem ftxCache_of_ckv (h : s.ftx.ckv = true) : ftxCache f s = s := if_pos h

/-- With byte `b` at the position, an accepted step sends it in one of three ways (R155 to R158). -/
theorem ftxAccepted_of_byte (hck : s.ftx.ck = crc16 f.payload) {k : Nat} {b : Byte} (hpos : s.ftx.pos = k + 1)
    (hb : (fetBody f.payload)[k]? = some b) :
    ftxAccepted f rest s =
      .next (if s.ftx.esc then ftxEsc2 b s else if fetReserved b then ftxEsc1 s else ftxPlain b s) := by
  have hlt : k < f.len + 2 := by simpa [fetBody] using (List.getElem?_eq_some_iff.mp hb).1
  have hend : k ≠ f.len + 2 := hlt.ne
  simp [ftxAccepted, hpos, hck, hend, ftxByte_succ, hb]

/-- The same for the whole operation, once the checksum is cached. -/
theorem exec_ftxStep_of_byte (hq : s.ftx.q = f :: rest) (hckv : s.ftx.ckv = true) (hck : s.ftx.ck = crc16 f.payload)
    {k : Nat} {b : Byte} (hpos : s.ftx.pos = k + 1) (hb : (fetBody f.payload)[k]? = some b) :
    exec (.ftxStep true) s = .next
      (if s.ftx.esc then ftxEsc2 b s.quiet else if fetReserved b then ftxEsc1 s.quiet else ftxPlain b s.quiet) := by
  rw [exec_ftxStep_of_cons hq, ftxCache_of_ckv (s := s.quiet) hckv]
  exact ftxAccepted_of_byte (s := s.quiet) hck hpos hb

/-- A cache that is not valid, or is the head frame's checksum, becomes the head frame's checksum (R152). -/
theorem ftxCache_of_valid (hck : s.ftx.ckv = true → s.ftx.ck = crc16 f.payload) :
    ftxCache f s = { s with ftx := { s.ftx with ck := crc16 f.payload, ckv := true } } := by
  unfold ftxCache
  split_ifs with h
  · rw [← hck h, ← h]
  · rfl

/-- The first accepted step on a frame sends the opening sentinel (R154). -/
theorem fet_sends_sof (hq : s.ftx.q = f :: rest) (hpos : s.ftx.pos = 0) (hesc : s.ftx.esc = false)
    (hck : s.ftx.ckv = true → s.ftx.ck = crc16 f.payload) :
    Sends (.ftxStep true) s [wired Config.fetSentinel] (s.atFetPos f 1) := by
  have hrun : exec (.ftxStep true) s = .next (ftxSof (ftxCache f s.quiet)) := by
    rw [exec_ftxStep_of_cons hq]
    exact if_pos (by rw [ftxCache_ftx]; exact hpos)
  rw [ftxCache_of_valid (s := s.quiet) hck] at hrun
  exact .of_exec hrun rfl (by simp [ftxSof, State.silent, State.atFetPos, hesc])

/-- A byte at the position goes out as it is, or as its escape pair in two steps (R81). -/
theorem fet_sends_byte (hq : s.ftx.q = f :: rest) {k : Nat} {b : Byte} (hb : (fetBody f.payload)[k]? = some b) :
    Sends (.ftxStep true) (s.atFetPos f (k + 1)) ((fetEscapeByte b).map wired) (s.atFetPos f (k + 2)) := by
  have hfirst := exec_ftxStep_of_byte (s := s.atFetPos f (k + 1)) hq rfl rfl rfl hb
  rw [if_neg (by simp [State.atFetPos])] at hfirst
  unfold fetEscapeByte
  split_ifs at hfirst ⊢ with hres
  · have hsecond := exec_ftxStep_of_byte (s := ftxEsc1 (s.atFetPos f (k + 1)).quiet) hq rfl rfl rfl hb
    rw [if_pos (by rfl)] at hsecond
    exact .trans (.of_exec hfirst rfl rfl)
      (.of_exec hsecond rfl (by simp [ftxEsc2, ftxEsc1, State.atFetPos, State.silent]))
  · exact .of_exec hfirst rfl (by simp [ftxPlain, State.atFetPos, State.silent])

/-- From the first byte of `bs` on, the rest of what the frame protects goes out escaped. -/
theorem fet_sends_bytes (hq : s.ftx.q = f :: rest) (pre bs : List Byte) (h : fetBody f.payload = pre ++ bs) :
    Sends (.ftxStep true) (s.atFetPos f (pre.length + 1)) ((fetEscapeBytes bs).map wired)
      (s.atFetPos f (f.len + 3)) := by
  induction bs generalizing pre with
  | nil =>
    have hlen : pre.length = f.len + 2 := by simpa [fetBody] using congrArg List.length h.symm
    rw [hlen]
    exact .done rfl
  | cons b bs ih =>
    have hb : (fetBody f.payload)[pre.length]? = some b := by simp [h]
    have hrest := ih (pre ++ [b]) (by simp [h])
    rw [List.length_append, List.length_singleton] at hrest
    have hall := (fet_sends_byte hq hb).trans hrest
    rwa [← List.map_append] at hall

/-- The closing sentinel retires the frame (R159). -/
theorem fet_sends_eof (hq : s.ftx.q = f :: rest) :
    Sends (.ftxStep true) (s.atFetPos f (f.len + 3)) [⟨.wire Config.fetSentinel, some .ftxRetired⟩]
      (s.fetRetired f rest) :=
  .of_exec (exec_ftxStep_retires (s := s.atFetPos f (f.len + 3)) hq rfl) rfl rfl

/-- Accepted steps from between two frames send the head frame's encoding and retire the frame with its last byte
(R161). -/
theorem fet_sends_frame (hq : s.ftx.q = f :: rest) (hpos : s.ftx.pos = 0) (hesc : s.ftx.esc = false)
    (hck : s.ftx.ckv = true → s.ftx.ck = crc16 f.payload) :
    ∃ rs, Sends (.ftxStep true) s rs (s.fetRetired f rest) ∧
      rs.map Report.result = (fetEncode f.payload).map Result.wire ∧ events rs = [.ftxRetired] := by
  have hbody := fet_sends_bytes hq [] (fetBody f.payload) rfl
  refine ⟨_, ((fet_sends_sof hq hpos hesc hck).trans hbody).trans (fet_sends_eof hq), ?_, ?_⟩
  · simp [fetEncode, wired, Function.comp_def]
  · simp [events, wired, List.filterMap_append]

end Fet

/-! ### One RSP frame (R235 to R244) -/

section Rsp
variable {s : State} {f : TaggedFrame} {rest : List TaggedFrame}

/-- `s` with wrapped head frame `f` begun and its first `k` payload bytes sent; `e` says whether the escape introducer of
the next one is sent too. -/
def State.atRspIdx (s : State) (f : TaggedFrame) (k : Nat) (e : Bool) : State :=
  { s with gtx := { s.gtx with idx := k, esc := e, mode := if k = f.len then .ckb else .data } }

/-- `s` with the payload of wrapped head frame `f` sent and its first checksum digit too, where `d` says so. -/
def State.atRspDigit (s : State) (f : TaggedFrame) (d : Bool) : State :=
  { s with gtx := { s.gtx with mode := .ck, idx := f.len, esc := false, ck := sum8 f.payload, digit := d } }

/-- `s` after wrapped frame `f` has been retired and `rest` is left queued. -/
def State.rspRetired (s : State) (f : TaggedFrame) (rest : List TaggedFrame) : State :=
  { s with
    gtx := { s.gtx with q := rest, mode := .idle, idx := 0, esc := false, ck := sum8 f.payload, digit := false }
    stats := { s.stats with rspTxFrames := s.stats.rspTxFrames + 1, rspTxBytes := s.stats.rspTxBytes + f.len } }

/-- `s` after a bare byte has been retired and `rest` is left queued. -/
def State.bareRetired (s : State) (rest : List TaggedFrame) : State :=
  { s with
    gtx := { s.gtx with q := rest }
    stats := { s.stats with rspTxFrames := s.stats.rspTxFrames + 1, rspTxBytes := s.stats.rspTxBytes + 1 } }

/-- With a frame queued, `GTX.STEP 1` is an accepted step on it. -/
theorem exec_gtxStep_of_cons (hq : s.gtx.q = f :: rest) : exec (.gtxStep true) s = gtxAccepted f rest s.quiet := by
  simp [exec, execGtxStep, hq]

/-- In `DATA`, with payload byte `b` at the index, an accepted step is the byte's case (R237 to R239). -/
theorem exec_gtxStep_of_data (hq : s.gtx.q = f :: rest) (hm : s.gtx.mode = .data) {b : Byte}
    (hb : f.payload[s.gtx.idx]? = some b) : exec (.gtxStep true) s = .next (gtxData f b s.quiet) := by
  rw [exec_gtxStep_of_cons hq]
  simp [gtxAccepted, hm, memRead_gtx_head s.quiet f rest hq, hb]

/-- In `CKB` an accepted step ends the payload (R241). -/
theorem exec_gtxStep_of_ckb (hq : s.gtx.q = f :: rest) (hm : s.gtx.mode = .ckb) :
    exec (.gtxStep true) s = .next (gtxBoundary f s.quiet) := by
  rw [exec_gtxStep_of_cons hq]
  simp [gtxAccepted, hm]

/-- In `CK` an accepted step sends the first digit first (R242). -/
theorem exec_gtxStep_of_first_digit (hq : s.gtx.q = f :: rest) (hm : s.gtx.mode = .ck) (hd : s.gtx.digit = false) :
    exec (.gtxStep true) s = .next (gtxHigh s.quiet) := by
  rw [exec_gtxStep_of_cons hq]
  simp [gtxAccepted, hm, hd]

/-- The first accepted step on a wrapped frame sends `$` (R236). -/
theorem rsp_sends_start (hq : s.gtx.q = f :: rest) (hm : s.gtx.mode = .idle) (hw : f.wrapped = true) :
    Sends (.gtxStep true) s [wired Config.rspStart] (s.atRspIdx f 0 false) := by
  have hrun : exec (.gtxStep true) s = .next (gtxStart f s.quiet) := by
    rw [exec_gtxStep_of_cons hq]
    simp [gtxAccepted, hm, hw]
  exact .of_exec hrun rfl (by simp [gtxStart, State.atRspIdx, State.silent, eq_comm])

/-- A payload byte goes out as it is, or as its escape pair in two steps (R89). -/
theorem rsp_sends_byte (hq : s.gtx.q = f :: rest) {k : Nat} {b : Byte} (hb : f.payload[k]? = some b) :
    Sends (.gtxStep true) (s.atRspIdx f k false) ((rspEscapeByte b).map wired) (s.atRspIdx f (k + 1) false) := by
  have hk : k ≠ f.len := (List.getElem?_eq_some_iff.mp hb).1.ne
  have hm : (s.atRspIdx f k false).gtx.mode = .data := if_neg hk
  have hfirst := exec_gtxStep_of_data (s := s.atRspIdx f k false) hq hm hb
  unfold rspEscapeByte
  split_ifs with hres
  · have hsecond := exec_gtxStep_of_data (s := s.atRspIdx f k true) hq hm hb
    have hheld : Sends (.gtxStep true) (s.atRspIdx f k false) [wired Config.rspEscape] (s.atRspIdx f k true) :=
      .of_exec hfirst (by simp [gtxData, State.atRspIdx, hres, Report.empty, wired])
        (by simp [gtxData, State.atRspIdx, State.silent, hres])
    exact hheld.trans (.of_exec hsecond (by simp [gtxData, State.atRspIdx, Report.empty, wired])
      (by simp [gtxData, gtxAdvance, State.atRspIdx, State.silent, hk]))
  · exact .of_exec hfirst (by simp [gtxData, State.atRspIdx, hres, Report.empty, wired])
      (by simp [gtxData, gtxAdvance, State.atRspIdx, State.silent, hres, hk])

/-- From the first byte of `bs` on, the rest of the payload goes out escaped. -/
theorem rsp_sends_bytes (hq : s.gtx.q = f :: rest) (pre bs : List Byte) (h : f.payload = pre ++ bs) :
    Sends (.gtxStep true) (s.atRspIdx f pre.length false) ((rspEscapeBytes bs).map wired)
      (s.atRspIdx f f.len false) := by
  induction bs generalizing pre with
  | nil =>
    have hlen : pre.length = f.len := by simpa using (congrArg List.length h).symm
    rw [hlen]
    exact .done rfl
  | cons b bs ih =>
    have hb : f.payload[pre.length]? = some b := by simp [h]
    have hrest := ih (pre ++ [b]) (by simp [h])
    rw [List.length_append, List.length_singleton] at hrest
    have hall := (rsp_sends_byte hq hb).trans hrest
    rwa [← List.map_append] at hall

/-- After the payload `#` and the two digits of its sum go out, and the frame is retired with the second (R241 to
R243). -/
theorem rsp_sends_checksum (hq : s.gtx.q = f :: rest) :
    Sends (.gtxStep true) (s.atRspIdx f f.len false)
      [wired Config.rspEnd, wired (hexHigh (sum8 f.payload)), ⟨.wire (hexLow (sum8 f.payload)), some .gtxRetired⟩]
      (s.rspRetired f rest) := by
  have hend : Sends (.gtxStep true) (s.atRspIdx f f.len false) [wired Config.rspEnd] (s.atRspDigit f false) :=
    .of_exec (exec_gtxStep_of_ckb hq (if_pos rfl)) rfl
      (by simp [gtxBoundary, State.atRspIdx, State.atRspDigit, State.silent])
  have hhigh : Sends (.gtxStep true) (s.atRspDigit f false) [wired (hexHigh (sum8 f.payload))] (s.atRspDigit f true) :=
    .of_exec (exec_gtxStep_of_first_digit hq rfl rfl) rfl (by simp [gtxHigh, State.atRspDigit, State.silent])
  have hlow : Sends (.gtxStep true) (s.atRspDigit f true) [⟨.wire (hexLow (sum8 f.payload)), some .gtxRetired⟩]
      (s.rspRetired f rest) :=
    .of_exec (exec_gtxStep_retires_wrapped hq rfl rfl) rfl
      (by simp [gtxLow, State.atRspDigit, State.rspRetired, State.silent, Stats.bump])
  exact (hend.trans hhigh).trans hlow

/-- Accepted steps from `IDLE` send a wrapped head frame's encoding and retire the frame with its last byte (R244). -/
theorem rsp_sends_wrapped (hq : s.gtx.q = f :: rest) (hm : s.gtx.mode = .idle) (hw : f.wrapped = true) :
    ∃ rs, Sends (.gtxStep true) s rs (s.rspRetired f rest) ∧
      rs.map Report.result = (rspEncode f.payload).map Result.wire ∧ events rs = [.gtxRetired] := by
  have hpayload := rsp_sends_bytes hq [] f.payload rfl
  refine ⟨_, ((rsp_sends_start hq hm hw).trans hpayload).trans (rsp_sends_checksum hq), ?_, ?_⟩
  · simp [rspEncode, hex2, wired, Function.comp_def]
  · simp [events, wired, List.filterMap_append]

/-- An accepted step from `IDLE` sends a bare head frame's byte and retires the frame (R235). -/
theorem rsp_sends_bare {b : Byte} (hq : s.gtx.q = f :: rest) (hm : s.gtx.mode = .idle) (hw : f.wrapped = false)
    (hb : f.payload = [b]) :
    Sends (.gtxStep true) s [⟨.wire b, some .gtxRetired⟩] (s.bareRetired rest) := by
  have hrun : exec (.gtxStep true) s = .next (gtxBare b rest s.quiet) := by
    rw [exec_gtxStep_of_cons hq]
    simp [gtxAccepted, hm, hw, memRead_gtx_head s.quiet f rest hq, hb]
  exact .of_exec hrun rfl (by simp [gtxBare, State.bareRetired, State.silent, Stats.bump])

end Rsp

/-! ### The whole queue -/

/-- Between two FET frames: nothing is in flight, held back or cached (R24). -/
def BetweenFetFrames (s : State) : Prop := s.ftx.pos = 0 ∧ s.ftx.esc = false ∧ s.ftx.ckv = false

/-- Between two RSP frames, with every bare frame one byte long (R232). -/
def BetweenRspFrames (s : State) : Prop := s.gtx.mode = .idle ∧ ∀ f ∈ s.gtx.q, f.wrapped = false → f.len = 1

/-- The bytes a frame of the RSP queue puts on the wire (R235, R244). -/
def TaggedFrame.encoded (f : TaggedFrame) : List Byte := if f.wrapped then rspEncode f.payload else f.payload

/-- `FTX.DRAIN` from between two frames sends the whole queue and counts every frame. -/
theorem ftxDrain_sends_queue {s : State} (hs : BetweenFetFrames s) :
    ∃ fuel t, ftxDrain fuel s = some (t, s.ftx.q.flatMap fun f => fetEncode f.payload) ∧ t.ftx.q = [] ∧
      t.stats.fetTxFrames = s.stats.fetTxFrames + s.ftx.q.length := by
  refine drain_queue (q := fun s => s.ftx.q) (sent := fun s => s.stats.fetTxFrames) (fun s hq => ?_)
    (fun s f rest hs hq => ?_) s hs
  · exact ⟨s.quiet.answer .noByte, by simp [exec, execFtxStep, hq], rfl, hq, rfl⟩
  · obtain ⟨hpos, hesc, hckv⟩ := hs
    obtain ⟨rs, hsends, hrs, -⟩ := fet_sends_frame hq hpos hesc (by simp [hckv])
    exact ⟨rs, _, hsends, hrs, ⟨rfl, rfl, rfl⟩, rfl, rfl⟩

/-- From between two frames the head frame of the RSP queue, wrapped or bare, is sent and counted. -/
theorem rsp_sends_frame {s : State} {f : TaggedFrame} {rest : List TaggedFrame} (hs : BetweenRspFrames s)
    (hq : s.gtx.q = f :: rest) :
    ∃ rs t, Sends (.gtxStep true) s rs t ∧ rs.map Report.result = f.encoded.map Result.wire ∧ BetweenRspFrames t ∧
      t.gtx.q = rest ∧ t.stats.rspTxFrames = s.stats.rspTxFrames + 1 := by
  obtain ⟨hm, hbare⟩ := hs
  have hrest : ∀ g ∈ rest, g.wrapped = false → g.len = 1 := fun g hg => hbare g (by simp [hq, hg])
  unfold TaggedFrame.encoded
  cases hw : f.wrapped with
  | true =>
    obtain ⟨rs, hsends, hrs, -⟩ := rsp_sends_wrapped hq hm hw
    exact ⟨rs, _, hsends, hrs, ⟨rfl, hrest⟩, rfl, rfl⟩
  | false =>
    obtain ⟨b, hb⟩ := List.length_eq_one_iff.mp (hbare f (by simp [hq]) hw)
    exact ⟨_, _, rsp_sends_bare hq hm hw hb, by simp [hb], ⟨hm, hrest⟩, rfl, rfl⟩

/-- `GTX.DRAIN` from between two frames sends the whole queue and counts every frame. -/
theorem gtxDrain_sends_queue {s : State} (hs : BetweenRspFrames s) :
    ∃ fuel t, gtxDrain fuel s = some (t, s.gtx.q.flatMap TaggedFrame.encoded) ∧ t.gtx.q = [] ∧
      t.stats.rspTxFrames = s.stats.rspTxFrames + s.gtx.q.length := by
  refine drain_queue (q := fun s => s.gtx.q) (sent := fun s => s.stats.rspTxFrames) (fun s hq => ?_)
    (fun s f rest hs hq => rsp_sends_frame hs hq) s hs
  exact ⟨s.quiet.answer .noByte, by simp [exec, execGtxStep, hq], rfl, hq, rfl⟩

/-- Settles O22, by induction on the queue: each frame is sent whole and leaves the transmitter between two frames. -/
theorem drainSendsEveryQueuedFrame : Obligations.DrainSendsEveryQueuedFrame :=
  fun _ => ⟨fun hpos hesc hckv => ftxDrain_sends_queue ⟨hpos, hesc, hckv⟩,
    fun hm hbare => gtxDrain_sends_queue ⟨hm, hbare⟩⟩

end Sys2Proof.Machine
end

section
/-! The decoder against the encoder and the reserved words (R104 to R107, R80 to R90). -/

namespace Sys2Proof.Machine

/-! ### The punctuation and the hex digits of the RSP link -/

/-- The five bytes that have a wire-byte row of their own on the RSP link, the hex digits aside (R87 to R89). -/
def rspPunctuation : List Byte :=
  [Config.rspStart, Config.rspEnd, Config.rspEscape, Config.rspAck, Config.rspNak]

/-- No byte of the punctuation is a hex digit, so that the rows of the RSP link are disjoint (R87 to R90). -/
theorem hexval_of_rspPunctuation : ∀ b ∈ rspPunctuation, hexval b = none := by decide

/-- A FET byte that is not reserved is FET.DATA (R84). -/
theorem decodeFetByte_of_data {b : Byte} (h : (Instr.fetData b).WellFormed) : decodeFetByte b = .fetData b := by
  obtain ⟨hs, hx⟩ := wellFormed_fetData_iff.mp h
  simp [decodeFetByte, hs, hx]

/-- Outside the punctuation an RSP byte is RSP.HEXDIGIT or has no row (R90, R201). -/
theorem decodeRspByte_of_not_mem {b : Byte} (hb : b ∉ rspPunctuation) :
    decodeRspByte b = if (hexval b).isSome then .rspHexdigit b else .grxByte b := by
  simp only [rspPunctuation, List.mem_cons, List.not_mem_nil, or_false, not_or] at hb
  obtain ⟨hstart, hend, hescape, hack, hnak⟩ := hb
  simp only [decodeRspByte, hstart, hend, hescape, hack, hnak, if_false]

/-- A hex digit on the RSP link is RSP.HEXDIGIT (R90). -/
theorem decodeRspByte_of_hexdigit {b : Byte} (h : (hexval b).isSome = true) : decodeRspByte b = .rspHexdigit b := by
  have hb : b ∉ rspPunctuation := fun hm => by simp [hexval_of_rspPunctuation b hm] at h
  rw [decodeRspByte_of_not_mem hb, if_pos h]

/-- Decoding undoes encoding, one row at a time: only a counter index, a FET data byte and a hex digit are checked. -/
theorem decode_encode {i : Instr} (h : i.WellFormed) : decode (encode i) = .ok i := by
  cases i with
  | statRead k =>
    have hk : k ≤ 13 := of_decide_eq_true h
    simpa [decode, encode, decodeWord] using hk
  | fetData b => exact congrArg Except.ok (decodeFetByte_of_data h)
  | rspHexdigit b => exact congrArg Except.ok (decodeRspByte_of_hexdigit h)
  | fetSentinel | fetEscape | rspStart | rspEnd | rspEscape | rspAck | rspNak => rfl
  | _ => simp [decode, encode, decodeWord]

/-- Settles O1, by cases on the operation's row. -/
theorem decodeOfEncodeIsIdentity : Obligations.DecodeOfEncodeIsIdentity := fun _ => decode_encode

/-! ### The bits of a stimulus word -/

theorem codeOf_toNat (w : Half) : (codeOf w).toNat = w.toNat / 256 := by
  have := w.isLt
  simp only [codeOf, hi8, BitVec.extractLsb'_toNat, Nat.shiftRight_eq_div_pow]
  omega

theorem dataOf_toNat (w : Half) : (dataOf w).toNat = w.toNat % 256 := by
  simp [dataOf, lo8]

/-- Masking a word masks its code and its operand byte. -/
theorem and_stimulusWord (w : Half) (c d : Byte) :
    w &&& stimulusWord c d = stimulusWord (codeOf w &&& c) (dataOf w &&& d) := by
  apply BitVec.eq_of_getLsbD_eq
  intro i hi
  by_cases h : i < 8
  · simp [stimulusWord, half, dataOf, lo8, h, hi]
  · have hd : d.getLsbD i = false := BitVec.getLsbD_of_ge d i (by omega)
    simp [stimulusWord, half, codeOf, hi8, h, hi, hd, show i - 8 < 8 by omega, show 8 + (i - 8) = i by omega]

/-- What the encoder writes for the `rdy` bit it reads: the operand byte on bit 0 (R105). -/
theorem ofRdy_rdyOf (d : Byte) : ofRdy (rdyOf d) = d &&& 1 := by
  revert d; decide

/-- The bits read of an operation without an operand are its code's. -/
theorem and_codeMask {w : Half} {n : Nat} (h : (codeOf w).toNat = n) :
    w &&& 0xFF00#16 = stimulusWord (BitVec.ofNat 8 n) 0#8 := by
  have hmask : 0xFF00#16 = stimulusWord (BitVec.allOnes 8) 0#8 := by decide
  rw [hmask, and_stimulusWord, BitVec.and_allOnes, BitVec.and_zero, ← h, BitVec.ofNat_toNat, BitVec.setWidth_eq]

/-- The bits read of an operation with an operand byte are all of the word's. -/
theorem and_wordMask {w : Half} {n : Nat} (h : (codeOf w).toNat = n) :
    w &&& 0xFFFF#16 = stimulusWord (BitVec.ofNat 8 n) (dataOf w) := by
  have hmask : 0xFFFF#16 = stimulusWord (BitVec.allOnes 8) (BitVec.allOnes 8) := by decide
  rw [hmask, and_stimulusWord, BitVec.and_allOnes, BitVec.and_allOnes, ← h, BitVec.ofNat_toNat, BitVec.setWidth_eq]

/-- The bits read of a transmit step are its code's and the `rdy` bit. -/
theorem and_rdyMask {w : Half} {n : Nat} (h : (codeOf w).toNat = n) :
    w &&& 0xFF01#16 = stimulusWord (BitVec.ofNat 8 n) (ofRdy (rdyOf (dataOf w))) := by
  have hmask : 0xFF01#16 = stimulusWord (BitVec.allOnes 8) 1 := by decide
  rw [hmask, and_stimulusWord, BitVec.and_allOnes, ofRdy_rdyOf, ← h, BitVec.ofNat_toNat, BitVec.setWidth_eq]

/-- An operation read from a word is well formed, and its encoding is the word on the bits it reads: in each row the
code is the row's, and the mask keeps the operand. -/
theorem encode_of_decodeWord {w : Half} {i : Instr} (h : decodeWord w = .ok i) :
    i.WellFormed ∧ encode i = .word (w &&& operandMask i) := by
  revert h
  fun_cases decodeWord w
  -- the two branches of `STAT.READ` and the reserved codes first
  case case4 d hcode hd =>
    rintro ⟨⟩
    exact ⟨decide_eq_true hd, congrArg Stim.word (and_wordMask hcode).symm⟩
  case case5 => rintro ⟨⟩
  case case21 => rintro ⟨⟩
  all_goals
    rename_i hcode
    rintro ⟨⟩
    refine ⟨rfl, ?_⟩
    simp +zetaDelta [encode, operandMask, and_codeMask hcode, and_wordMask hcode, and_rdyMask hcode]

/-! ### Wire bytes read as operations -/

/-- The row of a FET byte is well formed and is written as that byte (R80, R81, R84). -/
theorem encode_decodeFetByte (b : Byte) : (decodeFetByte b).WellFormed ∧ encode (decodeFetByte b) = .fetByte b := by
  unfold decodeFetByte
  split_ifs with hs hx
  · exact ⟨rfl, hs ▸ rfl⟩
  · exact ⟨rfl, hx ▸ rfl⟩
  · exact ⟨wellFormed_fetData_iff.mpr ⟨hs, hx⟩, rfl⟩

/-- A byte of the punctuation is written as it was read (R87 to R89). -/
theorem encode_decodeRspByte_of_punctuation :
    ∀ b ∈ rspPunctuation, (decodeRspByte b).WellFormed ∧ encode (decodeRspByte b) = .rspByte b := by decide

/-- The bytes with a row of their own on the RSP link (R87 to R90). -/
theorem rspRow_iff (b : Byte) :
    (b = 0x24 ∨ b = 0x23 ∨ b = 0x7D ∨ b = 0x2B ∨ b = 0x2D ∨ (hexval b).isSome = true) ↔
      b ∈ rspPunctuation ∨ (hexval b).isSome = true := by
  simp [rspPunctuation, Config.rspStart, Config.rspEnd, Config.rspEscape, Config.rspAck, Config.rspNak, or_assoc]

/-- An RSP byte with a row of its own is written as that byte (R87 to R90); any other is the operand of `GRX.BYTE`
(R201). -/
theorem encode_decodeRspByte (b : Byte) :
    (decodeRspByte b).WellFormed ∧
      if b = 0x24 ∨ b = 0x23 ∨ b = 0x7D ∨ b = 0x2B ∨ b = 0x2D ∨ (hexval b).isSome = true then
        encode (decodeRspByte b) = .rspByte b
      else decodeRspByte b = .grxByte b := by
  simp only [rspRow_iff]
  split_ifs with hrow
  · obtain hp | hhex := hrow
    · exact encode_decodeRspByte_of_punctuation b hp
    · rw [decodeRspByte_of_hexdigit hhex]
      exact ⟨hhex, rfl⟩
  · obtain ⟨hp, hhex⟩ := not_or.mp hrow
    rw [decodeRspByte_of_not_mem hp, if_neg hhex]
    exact ⟨rfl, rfl⟩

/-- Settles O2, by the form of the stimulus: a word, a FET byte or an RSP byte. -/
theorem decodeDropsOnlyIgnoredBits : Obligations.DecodeDropsOnlyIgnoredBits := by
  rintro (w | b | b) i h
  · obtain ⟨hwf, henc⟩ := encode_of_decodeWord h
    exact ⟨hwf, by rintro _ ⟨⟩; exact henc, nofun, nofun⟩
  · obtain ⟨hwf, henc⟩ := encode_decodeFetByte b
    cases h
    exact ⟨hwf, nofun, by rintro _ ⟨⟩; exact henc, nofun⟩
  · obtain ⟨hwf, henc⟩ := encode_decodeRspByte b
    cases h
    exact ⟨hwf, nofun, nofun, by rintro _ ⟨⟩; exact henc⟩

/-! ### Reserved words -/

/-- The reserved code bytes, and `STAT.READ`'s code with a reserved index (R106). -/
def ReservedWord (c d : Nat) : Prop :=
  (0x04 ≤ c ∧ c ≤ 0x0F) ∨ (0x13 ≤ c ∧ c ≤ 0x1F) ∨ (0x23 ≤ c ∧ c ≤ 0x2F) ∨ (0x33 ≤ c ∧ c ≤ 0x3F) ∨
    (0x41 ≤ c ∧ c ≤ 0x4F) ∨ (0x51 ≤ c ∧ c ≤ 0x5F) ∨ (0x64 ≤ c ∧ c ≤ 0xFF) ∨ (c = 0x03 ∧ 13 < d)

/-- A word decodes, and is none of R106's, or is refused, and is one of them. -/
theorem decodeWord_cases (w : Half) :
    (¬ReservedWord (codeOf w).toNat (dataOf w).toNat ∧ ∃ i, decodeWord w = .ok i) ∨
      (ReservedWord (codeOf w).toNat (dataOf w).toNat ∧ ∃ e, decodeWord w = .error e) := by
  have hc := (codeOf w).isLt
  unfold ReservedWord
  fun_cases decodeWord w
  -- the two branches of `STAT.READ` and the reserved codes first
  case case4 d hcode hd =>
    have hd : (dataOf w).toNat ≤ 13 := hd
    exact .inl ⟨by omega, _, rfl⟩
  case case5 d hcode hd =>
    have hd : ¬(dataOf w).toNat ≤ 13 := hd
    exact .inr ⟨by omega, _, rfl⟩
  case case21 =>
    simp only [imp_false] at *
    exact .inr ⟨by omega, _, rfl⟩
  all_goals exact .inl ⟨by omega, _, rfl⟩

/-- A step refuses a stimulus word that does not decode (R106). -/
theorem step_of_decode_error {s : State} {x : Stim} {rest : List Stim} {e : DecodeError} (hs : s.stim = x :: rest)
    (hd : decode x = .error e) : step s = .refused (refusalOf e) := by
  simp [step, fetch_of_stim_cons hs, hd]

/-- Settles O3: exactly R106's words do not decode, and a step refuses what does not decode. -/
theorem reservedWordsAreRefused : Obligations.ReservedWordsAreRefused := by
  intro w
  rw [← codeOf_toNat, ← dataOf_toNat]
  obtain ⟨hres, hok⟩ | ⟨hres, e, he⟩ := decodeWord_cases w
  · exact ⟨fun h => absurd h hres, fun _ => hok⟩
  · exact ⟨fun _ s rest hs => ⟨_, step_of_decode_error hs he⟩, fun h => absurd hres h⟩

/-- Settles O5: each printed word's code and operand select one row. -/
theorem printedWordsDecode : Obligations.PrintedWordsDecode :=
  ⟨rfl, rfl, rfl, rfl, rfl, rfl, rfl, rfl, rfl, rfl⟩

end Sys2Proof.Machine
end

section
/-! The wire formats (R80 to R91): which bytes are escaped, what an escaped sequence never holds, and how long frames
are. -/

namespace Sys2Proof.Machine

/-- The bytes escaped on the FET link (R81). -/
theorem fetReserved_iff (b : Byte) : fetReserved b = true ↔ b = 0x7E ∨ b = 0x7D := by
  simp [fetReserved, Config.fetSentinel, Config.fetEscape]

/-- The bytes escaped on the RSP link (R89). -/
theorem rspReserved_iff (b : Byte) : rspReserved b = true ↔ b = 0x23 ∨ b = 0x24 ∨ b = 0x7D := by
  simp [rspReserved, Config.rspTxEscset]

/-- The second byte of an escape pair is no sentinel (R81). -/
theorem escaped_ne_fetSentinel {b : Byte} (h : fetReserved b = true) : b ^^^ Config.escXor ≠ Config.fetSentinel := by
  obtain rfl | rfl := (fetReserved_iff b).mp h <;> decide

/-- The second byte of an escape pair is no delimiter and no introducer (R89). -/
theorem escaped_not_mem_escset {b : Byte} (h : rspReserved b = true) :
    b ^^^ Config.escXor ∉ Config.rspTxEscset := by
  obtain rfl | rfl | rfl := (rspReserved_iff b).mp h <;> decide

/-- The escaped form of a byte holds no sentinel (R81). -/
theorem fetSentinel_not_mem_escapeByte (b : Byte) : Config.fetSentinel ∉ fetEscapeByte b := by
  unfold fetEscapeByte
  split_ifs with h
  · have hne : Config.fetSentinel ≠ Config.fetEscape := by decide
    simp [hne, (escaped_ne_fetSentinel h).symm]
  · have hb : b ≠ Config.fetSentinel := fun hb => h (by simp [hb, fetReserved])
    simp [hb.symm]

/-- The escaped form of a payload byte holds neither `#` nor `$` (R89). -/
theorem delimiter_not_mem_escapeByte {d : Byte} (hd : d = Config.rspEnd ∨ d = Config.rspStart) (b : Byte) :
    d ∉ rspEscapeByte b := by
  have hmem : d ∈ Config.rspTxEscset := by obtain rfl | rfl := hd <;> decide
  have hne : d ≠ Config.rspEscape := by obtain rfl | rfl := hd <;> decide
  unfold rspEscapeByte
  split_ifs with h
  · have hx : d ≠ b ^^^ Config.escXor := fun hx => escaped_not_mem_escset h (hx ▸ hmem)
    simp [hne, hx]
  · have hb : d ≠ b := fun hb => h (by simpa [rspReserved, hb] using hmem)
    simp [hb]

/-- A reserved byte takes two wire bytes, any other one (R83). -/
theorem length_fetEscapeByte (b : Byte) : (fetEscapeByte b).length = if b = 0x7E ∨ b = 0x7D then 2 else 1 := by
  simp only [fetEscapeByte, fetReserved_iff]
  split_ifs <;> rfl

/-- A reserved payload byte takes two wire bytes, any other one (R91). -/
theorem length_rspEscapeByte (b : Byte) :
    (rspEscapeByte b).length = if b = 0x23 ∨ b = 0x24 ∨ b = 0x7D then 2 else 1 := by
  simp only [rspEscapeByte, rspReserved_iff]
  split_ifs <;> rfl

/-- A FET frame is two sentinels and its escaped body (R83). -/
theorem length_fetEncode (p : List Byte) :
    (fetEncode p).length = 2 + ((fetBody p).map fun b => if b = 0x7E ∨ b = 0x7D then 2 else 1).sum := by
  simp only [fetEncode, fetEscapeBytes, List.length_append, List.length_singleton, List.length_flatMap,
    length_fetEscapeByte]
  omega

/-- A wrapped RSP frame is `$`, the escaped payload, `#` and two digits (R91). -/
theorem length_rspEncode (p : List Byte) :
    (rspEncode p).length = 4 + (p.map fun b => if b = 0x23 ∨ b = 0x24 ∨ b = 0x7D then 2 else 1).sum := by
  simp only [rspEncode, rspEscapeBytes, hex2, List.length_append, List.length_cons, List.length_nil,
    List.length_flatMap, length_rspEscapeByte]
  omega

/-- An escaped FET sequence holds no sentinel (R81). -/
theorem fetSentinel_not_mem_escapeBytes (p : List Byte) : Config.fetSentinel ∉ fetEscapeBytes p := fun h =>
  let ⟨b, _, hb⟩ := List.mem_flatMap.mp h
  fetSentinel_not_mem_escapeByte b hb

/-- An escaped RSP payload holds neither `#` nor `$` (R89). -/
theorem delimiter_not_mem_escapeBytes {d : Byte} (hd : d = Config.rspEnd ∨ d = Config.rspStart) (p : List Byte) :
    d ∉ rspEscapeBytes p := fun h =>
  let ⟨b, _, hb⟩ := List.mem_flatMap.mp h
  delimiter_not_mem_escapeByte hd b hb

/-- Settles O29: an escaped sequence is the concatenation of its bytes' escaped forms, so both claims are claims about
one byte's. -/
theorem encodedFramesAreDelimitedAndMeasured : Obligations.EncodedFramesAreDelimitedAndMeasured := fun p =>
  ⟨fetSentinel_not_mem_escapeBytes p, length_fetEncode p, delimiter_not_mem_escapeBytes (.inl rfl) p,
    delimiter_not_mem_escapeBytes (.inr rfl) p, length_rspEncode p⟩

end Sys2Proof.Machine
end

section
/-! Sequences of operations (R13, R108): what running one after another reports and leaves, and the pseudo-operations
`CRC16` and `SUM8`. -/

namespace Sys2Proof.Machine

/-! ### Running operations one after another -/

/-- The operations `is`, run from `s`, report `rs` and end in `t` but for the last report. -/
def Yields (is : List Instr) (s : State) (rs : List Report) (t : State) : Prop :=
  ∃ u, runAll is s = some (u, rs) ∧ u.silent = t.silent

/-- A run goes on with what the first operation answers. -/
theorem runAll_cons_of_exec {i : Instr} {is : List Instr} {s t u : State} {rs : List Report} (h : exec i s = .next t)
    (hr : runAll is t = some (u, rs)) : runAll (i :: is) s = some (u, t.report :: rs) := by
  simp [runAll, h, hr]

/-- A run that is not empty begins with an operation that answers a next state. -/
theorem runAll_cons_eq_some {i : Instr} {is : List Instr} {s u : State} {rs : List Report}
    (h : runAll (i :: is) s = some (u, rs)) :
    ∃ t rs', exec i s = .next t ∧ runAll is t = some (u, rs') ∧ rs = t.report :: rs' := by
  simp only [runAll] at h
  split at h
  case h_1 t ht =>
    obtain ⟨⟨u', rs'⟩, hr, heq⟩ := Option.map_eq_some_iff.mp h
    cases heq
    exact ⟨t, rs', ht, hr, rfl⟩
  all_goals cases h

namespace Yields

variable {is js : List Instr} {i : Instr} {s t u : State} {r : Report} {rs rs' : List Report}

/-- No operation yields no report. -/
theorem nil (h : s.silent = t.silent) : Yields [] s [] t := ⟨s, rfl, h⟩

/-- One operation yields its report. -/
theorem of_exec (h : exec i s = .next u) (hr : u.report = r) (ht : u.silent = t.silent) : Yields [i] s [r] t :=
  ⟨u, hr ▸ runAll_cons_of_exec h rfl, ht⟩

/-- What a sequence yields does not depend on the last report before it (log entry 4). -/
theorem congr_silent (h : s.silent = t.silent) (ht : Yields is t rs u) : Yields is s rs u := by
  obtain ⟨v, hv, hu⟩ := ht
  cases is with
  | nil =>
    cases hv
    exact nil (h.trans hu)
  | cons i is => exact ⟨v, by simpa only [runAll, exec_congr_silent h i] using hv, hu⟩

/-- Sequences run one after another. -/
theorem append (h : Yields is s rs t) (h' : Yields js t rs' u) : Yields (is ++ js) s (rs ++ rs') u := by
  obtain ⟨v, hv, ht⟩ := h
  induction is generalizing s rs with
  | nil =>
    cases hv
    exact h'.congr_silent ht
  | cons i is ih =>
    obtain ⟨w, ws, hw, hrun, rfl⟩ := runAll_cons_eq_some hv
    obtain ⟨x, hx, hu⟩ := ih hrun
    exact ⟨x, runAll_cons_of_exec hw hx, hu⟩

/-- A sequence that handles the bytes of `p` one by one, each by the operations `ops` gives it: where `st q` is the
state with `q` handled, each byte leads from one such state to the next. -/
theorem flatMap {ops : Byte → List Instr} {st : List Byte → State} (p : List Byte)
    (h : ∀ pre b post, p = pre ++ b :: post → Yields (ops b) (st pre) ((ops b).map fun _ => r) (st (pre ++ [b]))) :
    Yields (p.flatMap ops) (st []) ((p.flatMap ops).map fun _ => r) (st p) := by
  have hrest : ∀ pre post, p = pre ++ post →
      Yields (post.flatMap ops) (st pre) ((post.flatMap ops).map fun _ => r) (st p) := by
    intro pre post hp
    induction post generalizing pre with
    | nil =>
      obtain rfl : p = pre := by simpa using hp
      exact nil rfl
    | cons b post ih =>
      simpa using (h pre b post hp).append (ih (pre ++ [b]) (by simp [hp]))
  exact hrest [] p rfl

/-- The same where each byte has one operation. -/
theorem map {op : Byte → Instr} {st : List Byte → State} (p : List Byte)
    (h : ∀ pre b post, p = pre ++ b :: post → Yields [op b] (st pre) [r] (st (pre ++ [b]))) :
    Yields (p.map op) (st []) ((p.map op).map fun _ => r) (st p) := by
  rw [List.map_eq_flatMap]
  exact flatMap p h

/-- Repeating one operation is a sequence. -/
theorem of_sends (h : Sends i s rs t) : Yields (List.replicate rs.length i) s rs t := by
  induction h with
  | done hs => exact nil hs
  | step he _ ih => exact (of_exec he rfl rfl).append ih

end Yields

/-! ### `CRC16` and `SUM8` (R108, R127, R144) -/

/-- `CRC.UPD` on every byte of `p` leaves the running register of R127. -/
theorem crcUpds_yield (p : List Byte) (s : State) :
    Yields (p.map .crcUpd) s ((p.map Instr.crcUpd).map fun _ => Report.empty)
      { s with crcReg := crcFrom s.crcReg p } := by
  refine Yields.map (st := fun q => { s with crcReg := crcFrom s.crcReg q }) p fun pre b _ _ => .of_exec rfl rfl ?_
  simp [crcFrom_append, State.silent]

/-- `SUM.UPD` on every byte of `p` adds their sum to the register (R142). -/
theorem sumUpds_yield (p : List Byte) (s : State) :
    Yields (p.map .sumUpd) s ((p.map Instr.sumUpd).map fun _ => Report.empty)
      { s with sumReg := p.foldl sumStep s.sumReg } := by
  refine Yields.map (st := fun q => { s with sumReg := q.foldl sumStep s.sumReg }) p
    fun pre b _ _ => .of_exec rfl rfl ?_
  simp [State.silent]

/-- The read-out is the complement (R126). -/
theorem crcOut_eq_not (c : Half) : crcOut c = ~~~c := BitVec.xor_allOnes

/-- The pseudo-operation `CRC16` reports `crc16` last and leaves its complement in the register (R108, R127). -/
theorem pseudoCrc16_yields (p : List Byte) (s : State) :
    ∃ rs, Yields (pseudoCrc16 p) s (rs ++ [⟨.crc (crc16 p), none⟩]) { s with crcReg := ~~~(crc16 p) } := by
  have hreg : ~~~(crc16 p) = crcFrom Config.crcInit p := by rw [crc16, crcOut_eq_not, BitVec.not_not]
  have hinit : Yields [.crcInit] s [Report.empty] { s with crcReg := Config.crcInit } := .of_exec rfl rfl rfl
  have hupds := crcUpds_yield p { s with crcReg := Config.crcInit }
  have hfin : Yields [.crcFin] { s with crcReg := crcFrom Config.crcInit p } [⟨.crc (crc16 p), none⟩]
      { s with crcReg := crcFrom Config.crcInit p } := .of_exec rfl rfl rfl
  rw [hreg]
  exact ⟨_, (hinit.append hupds).append hfin⟩

/-- Settles O8. -/
theorem crc16PseudoOperationReportsCrc16 : Obligations.Crc16PseudoOperationReportsCrc16 := by
  intro p s
  obtain ⟨rs, t, hrun, ht⟩ := pseudoCrc16_yields p s
  exact ⟨t, _, hrun, List.getLast?_concat, ht⟩

/-- The register counts modulo 256 (R142). -/
theorem toNat_foldl_sumStep (a : Byte) (p : List Byte) :
    (p.foldl sumStep a).toNat = (a.toNat + (p.map BitVec.toNat).sum) % 256 := by
  induction p generalizing a with
  | nil => simpa using (Nat.mod_eq_of_lt a.isLt).symm
  | cons b p ih =>
    rw [List.foldl_cons, ih, sumStep, BitVec.toNat_add, List.map_cons, List.sum_cons, Nat.mod_add_mod, Nat.add_assoc]

/-- `sum8` is the sum of the bytes modulo 256 (R144). -/
theorem sum8_toNat (p : List Byte) : (sum8 p).toNat = (p.map BitVec.toNat).sum % 256 := by
  simp [sum8, toNat_foldl_sumStep]

/-- The pseudo-operation `SUM8` reports `sum8` last and leaves it in the register (R108, R144). -/
theorem pseudoSum8_yields (p : List Byte) (s : State) :
    ∃ rs, Yields (pseudoSum8 p) s (rs ++ [⟨.sum (sum8 p), none⟩]) { s with sumReg := sum8 p } := by
  have hinit : Yields [.sumInit] s [Report.empty] { s with sumReg := 0 } := .of_exec rfl rfl rfl
  have hupds := sumUpds_yield p { s with sumReg := 0 }
  have hfin : Yields [.sumFin] { s with sumReg := sum8 p } [⟨.sum (sum8 p), none⟩] { s with sumReg := sum8 p } :=
    .of_exec rfl rfl rfl
  exact ⟨_, (hinit.append hupds).append hfin⟩

/-- Settles O13. -/
theorem sum8PseudoOperationReportsTheSum : Obligations.Sum8PseudoOperationReportsTheSum := by
  intro p s
  obtain ⟨rs, t, hrun, ht⟩ := pseudoSum8_yields p s
  exact ⟨t, _, hrun, List.getLast?_concat, sum8_toNat p, ht⟩

end Sys2Proof.Machine
end

section
/-! A whole frame received (R184, R216), and a payload carried over each link from hand-in to delivery (R108, R161,
R244). -/

namespace Sys2Proof.Machine

/-- A run of quiet steps raises no event. -/
theorem events_map_empty {α : Type} (l : List α) : events (l.map fun _ => Report.empty) = [] := by
  simp [events, Report.empty]

theorem events_append (rs rs' : List Report) : events (rs ++ rs') = events rs ++ events rs' := List.filterMap_append

/-- What comes before a byte of a sequence is shorter than the sequence. -/
theorem length_lt_of_split {p pre post : List Byte} {b : Byte} (h : p = pre ++ b :: post) : pre.length < p.length := by
  simp [h]

/-- XOR with the escape value undoes itself (R81, R89). -/
theorem xor_escXor_xor_escXor (b : Byte) : b ^^^ Config.escXor ^^^ Config.escXor = b := by
  rw [BitVec.xor_assoc, BitVec.xor_self, BitVec.xor_zero]

/-! ### One FET frame received (R184) -/

section FetReceive
variable {s : State}

/-- `s` with FET bytes `q` assembled so far; `e` says whether an escape is pending. -/
def State.assembled (s : State) (q : List Byte) (e : Bool) : State :=
  { s with frx := { mode := .assemble, buf := q, esc := e } }

/-- `s` after payload `p` has been delivered by `FRX`. -/
def State.fetDelivered (s : State) (p : List Byte) : State :=
  { s with
    frx := { mode := .assemble, buf := [], esc := false }
    stats := { s.stats with
      fetRxFrames := s.stats.fetRxFrames + 1, fetRxBytes := s.stats.fetRxBytes + p.length } }

/-- The second byte of an escape pair is stored unescaped (R182). -/
theorem frxReceive_of_escaped {b : Byte} (hm : s.frx.mode = .assemble) (he : s.frx.esc = true)
    (hs : b ≠ Config.fetSentinel) :
    frxReceive b s = frxStore (b ^^^ Config.escXor) { s with frx := { s.frx with esc := false } } := by
  simp [frxReceive, hm, he, hs]

/-- A sentinel after a payload and its checksum is the end of the frame (R176, R177). -/
theorem frxReceive_of_body {p : List Byte} (hm : s.frx.mode = .assemble) (he : s.frx.esc = false)
    (hb : s.frx.buf = fetBody p) :
    frxReceive Config.fetSentinel s =
      ({ s.countFrame .fetRxFrames .fetRxBytes p.length with frx := { s.frx with buf := [] } }).deliver .frx p := by
  have hlen : s.frx.cnt = p.length + 2 := by simp [Frx.cnt, hb, fetBody]
  have hpayload : frxPayload (fetBody p) = p := by simp [frxPayload, fetBody]
  have hrck : frxRck (fetBody p) = crc16 p := by simp [frxRck, fetBody]
  simp only [frxReceive, hm, frxClose, he, frxValidate, hlen]
  simp [hb, hpayload, hrck]

/-- A sentinel received with nothing assembled opens a frame, in either mode (R172, R174). -/
theorem fet_receives_sof (hbuf : s.frx.buf = []) (hesc : s.frx.esc = false) :
    Yields [.frxByte Config.fetSentinel] s [Report.empty] (s.assembled [] false) := by
  have hrun : frxReceive Config.fetSentinel s.quiet = (s.assembled [] false).quiet := by
    cases hm : s.frx.mode with
    | hunt => rw [frxReceive_sentinel_of_hunt (s := s.quiet) hm]; rfl
    | assemble =>
      have hs : (s.assembled [] false).quiet = s.quiet := by
        simp [State.assembled, State.quiet, ← hm, ← hbuf, ← hesc]
      simp [frxReceive, hm, frxClose, hesc, hbuf, hs]
  exact .of_exec (exec_of_fetWireByte s rfl) (by rw [hrun]; rfl) (by rw [hrun]; rfl)

/-- The escaped form of a byte is received as the byte, where there is room for it (R81, R181 to R183). -/
theorem fet_receives_byte (q : List Byte) (b : Byte) (hroom : q.length < s.params.fetRxCap) :
    Yields (frxFeed (fetEscapeByte b)) (s.assembled q false) ((frxFeed (fetEscapeByte b)).map fun _ => Report.empty)
      (s.assembled (q ++ [b]) false) := by
  unfold fetEscapeByte
  split_ifs with hres
  · have hfirst : Yields [.frxByte Config.fetEscape] (s.assembled q false) [Report.empty] (s.assembled q true) :=
      .of_exec (exec_of_fetWireByte _ rfl) rfl rfl
    have hsecond := exec_of_fetWireByte (i := .frxByte (b ^^^ Config.escXor)) (s.assembled q true) rfl
    rw [frxReceive_of_escaped rfl rfl (escaped_ne_fetSentinel hres), xor_escXor_xor_escXor,
      frxStore_of_room hroom.ne] at hsecond
    exact hfirst.append (.of_exec hsecond rfl rfl)
  · obtain ⟨hs, hx⟩ : b ≠ Config.fetSentinel ∧ b ≠ Config.fetEscape := by simpa [fetReserved] using hres
    have hplain := exec_of_fetWireByte (i := .frxByte b) (s.assembled q false) rfl
    rw [frxReceive_data_of_assemble rfl rfl hs hx, frxStore_of_room hroom.ne] at hplain
    exact .of_exec hplain rfl rfl

/-- Everything a frame protects on the wire is received as it was, where there is room for it. -/
theorem fet_receives_bytes (p : List Byte) (hroom : p.length ≤ s.params.fetRxCap) :
    Yields (frxFeed (fetEscapeBytes p)) (s.assembled [] false)
      ((frxFeed (fetEscapeBytes p)).map fun _ => Report.empty) (s.assembled p false) := by
  have hfeed : frxFeed (fetEscapeBytes p) = p.flatMap fun b => frxFeed (fetEscapeByte b) := List.map_flatMap
  rw [hfeed]
  refine Yields.flatMap (st := fun q => s.assembled q false) p fun pre b post hp => ?_
  exact fet_receives_byte pre b ((length_lt_of_split hp).trans_le hroom)

/-- An encoded payload that fits, received with nothing assembled, is delivered once and nothing else is reported
(R184). -/
theorem fet_receives_frame (p : List Byte) (hbuf : s.frx.buf = []) (hesc : s.frx.esc = false)
    (hroom : p.length + 2 ≤ s.params.fetRxCap) :
    ∃ rs, Yields (frxFeed (fetEncode p)) s rs (s.fetDelivered p) ∧ events rs = [.deliver .frx p] := by
  have hbody := fet_receives_bytes (s := s) (fetBody p) (by simpa [fetBody] using hroom)
  have heof := exec_of_fetWireByte (i := .frxByte Config.fetSentinel) (s.assembled (fetBody p) false) rfl
  rw [frxReceive_of_body (p := p) rfl rfl rfl] at heof
  have hfeed : frxFeed (fetEncode p) =
      [.frxByte Config.fetSentinel] ++ frxFeed (fetEscapeBytes (fetBody p)) ++ [.frxByte Config.fetSentinel] := by
    simp [frxFeed, fetEncode]
  rw [hfeed]
  refine ⟨_, ((fet_receives_sof hbuf hesc).append hbody).append (.of_exec heof rfl rfl), ?_⟩
  rw [events_append, events_append, events_map_empty]
  rfl

end FetReceive

/-! ### One RSP frame received (R216) -/

section RspReceive
variable {s : State}

/-- `s` with RSP payload bytes `q` received and summed so far; `e` says whether an escape is pending. -/
def State.inPayload (s : State) (q : List Byte) (e : Bool) : State :=
  { s with grx := { s.grx with mode := .payload, buf := q, sum := sum8 q, esc := e } }

/-- `s` with RSP payload `p` received and its checksum awaited, of which the digits received so far make `rck`. -/
def State.inCksum (s : State) (p : List Byte) (rck : Byte) (d : Bool) : State :=
  { s with grx := { mode := .cksum, buf := p, esc := false, sum := sum8 p, rck := rck, digit := d } }

/-- `s` after payload `p` has been delivered by `GRX`. -/
def State.rspDelivered (s : State) (p : List Byte) : State :=
  { s with
    grx := Grx.reset
    stats := { s.stats with
      rspRxFrames := s.stats.rspRxFrames + 1, rspRxBytes := s.stats.rspRxBytes + p.length } }

/-- A byte stored below the capacity is appended and summed (R209). -/
theorem grxStore_of_room {b : Byte} (hc : s.grx.cnt ≠ s.params.rspRxCap) :
    grxStore b s = { s with grx := { s.grx with buf := s.grx.buf ++ [b], sum := sumStep s.grx.sum b } } :=
  if_neg hc

/-- A byte that is not in the escape set is data in `PAYLOAD` (R200). -/
theorem grxReceive_data_of_payload {b : Byte} (hm : s.grx.mode = .payload) (hb : b ∉ Config.rspTxEscset) :
    grxReceive b s = grxData b s := by
  have hend : b ≠ Config.rspEnd := fun h => hb (h ▸ by decide)
  have hescape : b ≠ Config.rspEscape := fun h => hb (h ▸ by decide)
  rw [grxReceive_of_payload hm, grxPayload, if_neg hend, if_neg hescape]

/-- `$` received in `IDLE` opens a frame (R203). -/
theorem rsp_receives_start (hm : s.grx.mode = .idle) :
    Yields [.grxByte Config.rspStart] s [Report.empty] (s.inPayload [] false) := by
  have hexec := exec_of_rspWireByte (i := .grxByte Config.rspStart) s rfl
  rw [grxReceive_of_idle (s := s.quiet) hm, grxIdle_start] at hexec
  exact .of_exec hexec rfl rfl

/-- A stored byte is one more byte of the payload, and of its sum. -/
theorem rsp_receives_data {b v : Byte} {e : Bool} (q : List Byte) (hb : b ∉ Config.rspTxEscset)
    (hv : v = if e then b ^^^ Config.escXor else b) (hroom : q.length < s.params.rspRxCap) :
    Yields [.grxByte b] (s.inPayload q e) [Report.empty] (s.inPayload (q ++ [v]) false) := by
  have hstore : grxData b (s.inPayload q e).quiet = (s.inPayload (q ++ [v]) false).quiet := by
    have hnext : s.inPayload (q ++ [v]) false =
        { s with grx :=
          { s.grx with mode := .payload, buf := q ++ [v], sum := sumStep (sum8 q) v, esc := false } } := by
      rw [← sum8_snoc]; rfl
    rw [hnext, hv]
    cases e <;> exact grxStore_of_room hroom.ne
  have hexec := exec_of_rspWireByte (i := .grxByte b) (s.inPayload q e) rfl
  rw [grxReceive_data_of_payload rfl hb, hstore] at hexec
  exact .of_exec hexec rfl rfl

/-- The escaped form of a payload byte is received as the byte, where there is room for it (R89, R208, R209). -/
theorem rsp_receives_byte (q : List Byte) (b : Byte) (hroom : q.length < s.params.rspRxCap) :
    Yields (grxFeed (rspEscapeByte b)) (s.inPayload q false) ((grxFeed (rspEscapeByte b)).map fun _ => Report.empty)
      (s.inPayload (q ++ [b]) false) := by
  unfold rspEscapeByte
  split_ifs with hres
  · have hfirst : Yields [.grxByte Config.rspEscape] (s.inPayload q false) [Report.empty] (s.inPayload q true) :=
      .of_exec (exec_of_rspWireByte _ rfl) rfl rfl
    exact hfirst.append
      (rsp_receives_data q (escaped_not_mem_escset hres) (xor_escXor_xor_escXor b).symm hroom)
  · exact rsp_receives_data q (by simpa [rspReserved] using hres) rfl hroom

/-- An escaped payload is received as it was, where there is room for it. -/
theorem rsp_receives_bytes (p : List Byte) (hroom : p.length ≤ s.params.rspRxCap) :
    Yields (grxFeed (rspEscapeBytes p)) (s.inPayload [] false)
      ((grxFeed (rspEscapeBytes p)).map fun _ => Report.empty) (s.inPayload p false) := by
  have hfeed : grxFeed (rspEscapeBytes p) = p.flatMap fun b => grxFeed (rspEscapeByte b) := List.map_flatMap
  rw [hfeed]
  refine Yields.flatMap (st := fun q => s.inPayload q false) p fun pre b post hp => ?_
  exact rsp_receives_byte pre b ((length_lt_of_split hp).trans_le hroom)

/-- The second checksum digit, when it makes the checksum the payload's sum, delivers the payload (R212). -/
theorem grxCksum_right_digit {b d : Byte} (hb : hexval b = some d) (hd : s.grx.digit = true)
    (hs : s.grx.sum = s.grx.rck ||| d) :
    grxCksum b s =
      ({ s.countFrame .rspRxFrames .rspRxBytes s.grx.cnt with grx := Grx.reset }).deliver .grx s.grx.buf := by
  simp [grxCksum, hb, hd, grxVerdict, hs]

/-- The first digit of a byte is read back as its high nibble (R145, R146). -/
theorem hexval_hexHigh (v : Byte) : hexval (hexHigh v) = some (hiNibble v) := by
  revert v; decide

/-- The second digit of a byte is read back as its low nibble (R145, R146). -/
theorem hexval_hexLow (v : Byte) : hexval (hexLow v) = some (loNibble v) := by
  revert v; decide

/-- A byte is made of its nibbles (R145). -/
theorem hiNibble_or_loNibble (v : Byte) : hiNibble v <<< 4 ||| loNibble v = v := by
  revert v; decide

/-- `#` ends the payload, and the two digits of its sum deliver it (R207, R211, R212). -/
theorem rsp_receives_checksum (p : List Byte) :
    Yields (grxFeed ([Config.rspEnd] ++ hex2 (sum8 p))) (s.inPayload p false)
      [Report.empty, Report.empty, ⟨.nothing, some (.deliver .grx p)⟩] (s.rspDelivered p) := by
  have hend : Yields [.grxByte Config.rspEnd] (s.inPayload p false) [Report.empty] (s.inCksum p 0 false) :=
    .of_exec (exec_of_rspWireByte _ rfl) rfl rfl
  have hhigh := exec_of_rspWireByte (i := .grxByte (hexHigh (sum8 p))) (s.inCksum p 0 false) rfl
  rw [grxReceive_of_cksum rfl, grxCksum_first_digit (hexval_hexHigh _) rfl] at hhigh
  have hlow := exec_of_rspWireByte (i := .grxByte (hexLow (sum8 p))) (s.inCksum p (hiNibble (sum8 p) <<< 4) true) rfl
  rw [grxReceive_of_cksum rfl, grxCksum_right_digit (hexval_hexLow _) rfl (hiNibble_or_loNibble _).symm] at hlow
  exact (hend.append (.of_exec hhigh rfl rfl)).append (.of_exec hlow rfl rfl)

/-- An encoded payload that fits, received in `IDLE`, is delivered once and nothing else is reported (R216). -/
theorem rsp_receives_frame (p : List Byte) (hm : s.grx.mode = .idle) (hroom : p.length ≤ s.params.rspRxCap) :
    ∃ rs, Yields (grxFeed (rspEncode p)) s rs (s.rspDelivered p) ∧ events rs = [.deliver .grx p] := by
  have hfeed : grxFeed (rspEncode p) =
      [.grxByte Config.rspStart] ++ grxFeed (rspEscapeBytes p) ++ grxFeed ([Config.rspEnd] ++ hex2 (sum8 p)) := by
    simp [grxFeed, rspEncode]
  rw [hfeed]
  refine ⟨_, ((rsp_receives_start hm).append (rsp_receives_bytes p hroom)).append (rsp_receives_checksum p), ?_⟩
  rw [events_append, events_append, events_map_empty]
  rfl

end RspReceive

/-! ### From hand-in to delivery -/

theorem wireBytes_append (rs rs' : List Report) : wireBytes (rs ++ rs') = wireBytes rs ++ wireBytes rs' :=
  List.filterMap_append

/-- The report of a push or an enqueue that was accepted (R105). -/
def accepted : Report := { result := .ok, event := none }

/-- Accepted pushes and enqueues put nothing on the wire. -/
theorem wireBytes_map_accepted {α : Type} (l : List α) : wireBytes (l.map fun _ => accepted) = [] := by
  simp [wireBytes, accepted]

/-- Reports of the wire bytes `bs` carry the wire bytes `bs`. -/
theorem wireBytes_of_results {rs : List Report} {bs : List Byte} (h : rs.map Report.result = bs.map Result.wire) :
    wireBytes rs = bs := by
  induction rs generalizing bs with
  | nil =>
    obtain rfl : bs = [] := by simpa using h.symm
    rfl
  | cons r rs ih =>
    cases bs with
    | nil => simp at h
    | cons b bs =>
      obtain ⟨hb, hbs⟩ := List.cons.inj h
      have hrest := ih hbs
      unfold wireBytes at hrest ⊢
      simp [hb, hrest]

section Links
variable {s : State}

/-- `s` with FET queue `q` and nothing staged. -/
def State.fetQueued (s : State) (q : List Frame) : State := { s with ftx := { s.ftx with q := q, stage := [] } }

/-- `s` with RSP queue `q` and nothing staged. -/
def State.rspQueued (s : State) (q : List TaggedFrame) : State :=
  { s with gtx := { s.gtx with q := q, stage := [] } }

/-- While the whole payload fits, the staging buffer has room for each of its bytes (R150, R230). -/
theorem maxTxPayload_ne_of_split {p pre post : List Byte} {b : Byte} (hmax : ∀ m ∈ s.params.maxTxPayload, p.length ≤ m)
    (hp : p = pre ++ b :: post) : s.params.maxTxPayload ≠ some pre.length := fun h =>
  (hmax _ h).not_gt (length_lt_of_split hp)

/-- `FTX.SEND` with nothing staged, and room for the payload and one more frame, queues the payload (R108, R150,
R160). -/
theorem ftxSend_yields (p : List Byte) (hstage : s.ftx.stage = [])
    (hmax : ∀ m ∈ s.params.maxTxPayload, p.length ≤ m) (hd : s.params.fetTxqDepth ≠ some s.ftx.q.length) :
    Yields (ftxSend p) s ((ftxSend p).map fun _ => accepted) (s.fetQueued (s.ftx.q ++ [⟨p⟩])) := by
  have hs : { s with ftx := { s.ftx with stage := [] } } = s := by rw [← hstage]
  have hpushes := Yields.map (op := .ftxPush) (st := fun q => { s with ftx := { s.ftx with stage := q } })
    (r := accepted) p fun pre b post hp =>
      .of_exec (congrArg Host.Outcome.next (if_neg (maxTxPayload_ne_of_split hmax hp))) rfl rfl
  have henq : Yields [.ftxEnq] { s with ftx := { s.ftx with stage := p } } [accepted]
      (s.fetQueued (s.ftx.q ++ [⟨p⟩])) :=
    .of_exec (congrArg Host.Outcome.next (if_neg hd)) rfl rfl
  rw [hs] at hpushes
  simpa [ftxSend] using hpushes.append henq

/-- `GTX.SENDW` with nothing staged, and room for the payload and one more frame, queues the payload wrapped (R108,
R230, R231). -/
theorem gtxSendw_yields (p : List Byte) (hstage : s.gtx.stage = [])
    (hmax : ∀ m ∈ s.params.maxTxPayload, p.length ≤ m) (hd : s.params.rspTxqDepth ≠ some s.gtx.q.length) :
    Yields (gtxSendw p) s ((gtxSendw p).map fun _ => accepted) (s.rspQueued (s.gtx.q ++ [⟨true, p⟩])) := by
  have hs : { s with gtx := { s.gtx with stage := [] } } = s := by rw [← hstage]
  have hpushes := Yields.map (op := .gtxPush) (st := fun q => { s with gtx := { s.gtx with stage := q } })
    (r := accepted) p fun pre b post hp =>
      .of_exec (congrArg Host.Outcome.next (if_neg (maxTxPayload_ne_of_split hmax hp))) rfl rfl
  have henq : Yields [.gtxEnqw] { s with gtx := { s.gtx with stage := p } } [accepted]
      (s.rspQueued (s.gtx.q ++ [⟨true, p⟩])) :=
    .of_exec (congrArg Host.Outcome.next (if_neg hd)) rfl rfl
  rw [hs] at hpushes
  simpa [gtxSendw] using hpushes.append henq

end Links

/-- Where the operations `send` queue a payload, repeating `i` sends the bytes `bs`, and feeding those delivers it, the
link carries the payload. -/
theorem link_carries {i : Instr} {send : List Instr} {feed : List Byte → List Instr} {bs : List Byte}
    {ev : List Event} {s a b c : State} {rs es : List Report}
    (hsend : Yields send s (send.map fun _ => accepted) a) (hsteps : Sends i a rs b)
    (hwire : rs.map Report.result = bs.map Result.wire) (hfeed : Yields (feed bs) b es c) (hev : events es = ev) :
    ∃ n t rs u es, runAll (send ++ List.replicate n i) s = some (t, rs) ∧
      runAll (feed (wireBytes rs)) t = some (u, es) ∧ events es = ev ∧ u.silent = c.silent := by
  obtain ⟨t, hrun, ht⟩ := hsend.append (.of_sends hsteps)
  obtain ⟨u, hrun', hu⟩ := hfeed.congr_silent ht
  refine ⟨_, t, _, u, es, hrun, ?_, hev, hu⟩
  rwa [wireBytes_append, wireBytes_map_accepted, List.nil_append, wireBytes_of_results hwire]

/-- Settles O32: the payload is queued, sent as one encoded frame, and that frame is received. -/
theorem fetLinkCarriesAPayload : Obligations.FetLinkCarriesAPayload := by
  intro p s hstage hq hpos hesc hckv hmax hd hbuf hfesc hcap
  have hqueued := ftxSend_yields p hstage hmax (by simpa [hq] using hd)
  rw [hq] at hqueued
  obtain ⟨rs, hsends, hwire, -⟩ := fet_sends_frame (f := ⟨p⟩) (rest := [])
    (s := s.fetQueued [⟨p⟩]) rfl hpos hesc (fun h => nomatch hckv.symm.trans h)
  obtain ⟨es, hfeed, hev⟩ := fet_receives_frame (s := (s.fetQueued [⟨p⟩]).fetRetired ⟨p⟩ []) p hbuf hfesc hcap
  obtain ⟨n, t, rs', u, es', hrun, hrun', hdel, hu⟩ := link_carries (feed := frxFeed) hqueued hsends hwire hfeed hev
  exact ⟨n, t, rs', u, es', hrun, hrun', hdel, congrArg (fun s => s.ftx.q) hu, congrArg (fun s => s.ftx.stage) hu⟩

/-- Settles O33: the payload is queued, sent as one encoded frame, and that frame is received. -/
theorem rspLinkCarriesAPayload : Obligations.RspLinkCarriesAPayload := by
  intro p s hstage hq hm hmax hd hidle hcap
  have hqueued := gtxSendw_yields p hstage hmax (by simpa [hq] using hd)
  rw [hq] at hqueued
  obtain ⟨rs, hsends, hwire, -⟩ := rsp_sends_wrapped (f := ⟨true, p⟩) (rest := [])
    (s := s.rspQueued [⟨true, p⟩]) rfl hm rfl
  obtain ⟨es, hfeed, hev⟩ := rsp_receives_frame (s := (s.rspQueued [⟨true, p⟩]).rspRetired ⟨true, p⟩ []) p hidle hcap
  obtain ⟨n, t, rs', u, es', hrun, hrun', hdel, hu⟩ := link_carries (feed := grxFeed) hqueued hsends hwire hfeed hev
  exact ⟨n, t, rs', u, es', hrun, hrun', hdel, congrArg (fun s => s.gtx.q) hu, congrArg (fun s => s.gtx.stage) hu⟩

end Sys2Proof.Machine
end

section
/-! Unit `CRC` (40_checksum_crc16.md): the shift of R122 is linear and injective, a register step is eight shifts, and
what R124 to R131 say of the register follows. -/

namespace Sys2Proof.Machine

/-! ### The shift step (R122) -/

/-- The shift step is a logical shift, corrected by the polynomial when a one is shifted out. -/
theorem crcShift_eq_xor (v : Half) :
    crcShift v = (v >>> 1) ^^^ (if v.getLsbD 0 then Config.crcPolyReflected else 0) := by
  unfold crcShift
  split
  · rfl
  · exact BitVec.xor_zero.symm

/-- When a zero is shifted out, the shift step is a logical shift. -/
theorem crcShift_of_even {v : Half} (h : v.getLsbD 0 = false) : crcShift v = v >>> 1 := by
  rw [crcShift, h, if_neg Bool.false_ne_true]

/-- The shift step is linear. -/
theorem crcShift_xor (v w : Half) : crcShift (v ^^^ w) = crcShift v ^^^ crcShift w := by
  simp only [crcShift_eq_xor, BitVec.getLsbD_xor, BitVec.ushiftRight_xor_distrib]
  have hpoly : (if v.getLsbD 0 ^^ w.getLsbD 0 then Config.crcPolyReflected else 0) =
      (if v.getLsbD 0 then Config.crcPolyReflected else 0) ^^^
        (if w.getLsbD 0 then Config.crcPolyReflected else 0) := by
    cases v.getLsbD 0 <;> cases w.getLsbD 0 <;> rfl
  rw [hpoly]
  ac_rfl

/-- The top bit after a shift step is the bit shifted out, for the polynomial has its top bit set. -/
theorem getLsbD_crcShift_top (v : Half) : (crcShift v).getLsbD 15 = v.getLsbD 0 := by
  unfold crcShift
  split <;> simp_all [Config.crcPolyReflected]

/-- Only the zero register shifts to zero. -/
theorem eq_zero_of_crcShift_eq_zero {v : Half} (h : crcShift v = 0) : v = 0 := by
  have hlow : v.getLsbD 0 = false := by rw [← getLsbD_crcShift_top, h]; rfl
  rw [crcShift_of_even hlow] at h
  apply BitVec.eq_of_getLsbD_eq
  intro i _
  cases i with
  | zero => simpa using hlow
  | succ i => simpa [Nat.add_comm] using congrArg (·.getLsbD i) h

/-- The shift step loses nothing. -/
theorem crcShift_injective : Function.Injective crcShift := by
  intro v w h
  have hzero : crcShift (v ^^^ w) = 0 := by rw [crcShift_xor, h, BitVec.xor_self]; rfl
  exact BitVec.xor_eq_zero_iff.mp (eq_zero_of_crcShift_eq_zero hzero)

/-! ### Several shift steps -/

theorem iterate_crcShift_xor (n : Nat) (v w : Half) :
    crcShift^[n] (v ^^^ w) = crcShift^[n] v ^^^ crcShift^[n] w :=
  Function.Semiconj₂.iterate crcShift_xor n v w

/-- While only zeros are shifted out, shift steps are a logical shift. -/
theorem iterate_crcShift_of_low_zero {n : Nat} {v : Half} (h : ∀ i < n, v.getLsbD i = false) :
    crcShift^[n] v = v >>> n := by
  induction n generalizing v with
  | zero => simp
  | succ n ih =>
    have hlow : ∀ i < n, (v >>> 1).getLsbD i = false := fun i hi => by
      rw [BitVec.getLsbD_ushiftRight]
      exact h (1 + i) (by omega)
    rw [Function.iterate_succ_apply, crcShift_of_even (h 0 n.succ_pos), ih hlow, ← BitVec.shiftRight_add,
      Nat.add_comm]

/-- What is added to the register after `n` shift steps may be added before them, `n` places higher, if it fits. -/
theorem iterate_crcShift_xor_shifted {n : Nat} {x : Half} (v : Half) (hfit : x <<< n >>> n = x) :
    crcShift^[n] v ^^^ x = crcShift^[n] (v ^^^ x <<< n) := by
  have hlow : ∀ i < n, (x <<< n).getLsbD i = false := fun i hi => by simp [hi]
  rw [iterate_crcShift_xor, iterate_crcShift_of_low_zero hlow, hfit]

/-! ### One byte (R125) -/

/-- The low byte of the register, as the formula of R125 writes it. -/
theorem lo8_eq_setWidth (v : Half) : lo8 v = v.setWidth 8 :=
  (BitVec.setWidth_eq_extractLsb' (by decide)).symm

/-- The two bytes of a half do not overlap. -/
theorem half_eq_xor (lo hi : Byte) : half lo hi = lo.setWidth 16 ^^^ hi.setWidth 16 <<< 8 := by
  apply BitVec.eq_of_getLsbD_eq
  intro i _
  by_cases h : i < 8
  · simp [half, h]
  · simp [half, h, BitVec.getLsbD_of_ge lo i (by omega)]

/-- The high byte of the register. -/
theorem setWidth_hi8 (v : Half) : (hi8 v).setWidth 16 = v >>> 8 := by
  apply BitVec.eq_of_getLsbD_eq
  intro i hi
  by_cases h : i < 8
  · simp [hi8, h, hi]
  · simp [hi8, h, BitVec.getLsbD_of_ge v (8 + i) (by omega)]

/-- Bits moved up by no more places than the register has above them still fit it. -/
theorem setWidth_fits {k n : Nat} (x : BitVec k) (h : n + k ≤ 16) : x.setWidth 16 <<< n >>> n = x.setWidth 16 := by
  apply BitVec.eq_of_getLsbD_eq
  intro i hi
  by_cases hk : i < k
  · simp [hi, show n + i < 16 by omega]
  · simp [BitVec.getLsbD_of_ge x i (by omega)]

/-- The table step is eight shift steps on the register with the byte added: the high byte is added back after the table
entry's eight shifts, or before them in its own place. -/
theorem crcStep_eq_iterate (c : Half) (b : Byte) : crcStep c b = crcShift^[8] (c ^^^ b.setWidth 16) := by
  have hbyte : b.setWidth 16 >>> 8 = 0 := BitVec.eq_of_getLsbD_eq (by simp)
  have hhigh : (hi8 (c ^^^ b.setWidth 16)).setWidth 16 = c >>> 8 := by
    rw [setWidth_hi8, BitVec.ushiftRight_xor_distrib, hbyte]
    exact BitVec.xor_zero
  calc crcStep c b
      = crcShift^[8] ((lo8 (c ^^^ b.setWidth 16)).setWidth 16) ^^^ (hi8 (c ^^^ b.setWidth 16)).setWidth 16 := by
        rw [hhigh]; rfl
    _ = crcShift^[8] (half (lo8 (c ^^^ b.setWidth 16)) (hi8 (c ^^^ b.setWidth 16))) := by
        rw [iterate_crcShift_xor_shifted _ (setWidth_fits _ (by decide)), half_eq_xor]
    _ = crcShift^[8] (c ^^^ b.setWidth 16) := by rw [half_lo8_hi8]

/-- A step of the bit-serial form is a shift step on the register with the bit added. -/
theorem crcBit_eq_crcShift (c : Half) (bit : Bool) :
    crcBit c bit = crcShift (c ^^^ (BitVec.ofBool bit).setWidth 16) := by
  have hbit : (c ^^^ (BitVec.ofBool bit).setWidth 16).getLsbD 0 = (bit ^^ c.getLsbD 0) := by
    simp [Bool.xor_comm]
  have hrest : (c ^^^ (BitVec.ofBool bit).setWidth 16) >>> 1 = c >>> 1 := by
    rw [BitVec.ushiftRight_xor_distrib]
    cases bit <;> simp
  rw [crcBit, crcShift, hbit, hrest]

/-- The bits of a byte up to bit `n` are those below it and bit `n`. -/
theorem setWidth_succ_eq_xor (b : Byte) {n : Nat} (hn : n < 8) :
    (b.setWidth (n + 1)).setWidth 16 =
      (b.setWidth n).setWidth 16 ^^^ (BitVec.ofBool (b.getLsbD n)).setWidth 16 <<< n := by
  apply BitVec.eq_of_getLsbD_eq
  intro i hi
  rcases lt_trichotomy i n with h | rfl | h
  · simp [h, hi, show i < n + 1 by omega]
  · simp [hi]
  · simp [hi, show ¬ i < n + 1 by omega, show ¬ i < n by omega, show i - n ≠ 0 by omega]

/-- After `n` bits of the byte, the bit-serial register is `n` shift steps on the register with those bits added. -/
theorem foldl_crcBit_eq_iterate (c : Half) (b : Byte) {n : Nat} (hn : n ≤ 8) :
    (List.range n).foldl (fun c i => crcBit c (b.getLsbD i)) c = crcShift^[n] (c ^^^ (b.setWidth n).setWidth 16) := by
  induction n with
  | zero =>
    rw [BitVec.eq_nil (b.setWidth 0)]
    exact BitVec.xor_zero.symm
  | succ n ih =>
    rw [List.range_succ, List.foldl_append, ih (by omega), List.foldl_cons, List.foldl_nil, crcBit_eq_crcShift,
      iterate_crcShift_xor_shifted _ (setWidth_fits _ (by omega)), ← Function.iterate_succ_apply' crcShift,
      BitVec.xor_assoc, ← setWidth_succ_eq_xor b hn]

/-- The two forms of R125 are one function. -/
theorem crcStep_eq_crcSerial (c : Half) (b : Byte) : crcStep c b = crcSerial c b := by
  rw [crcStep_eq_iterate, crcSerial, foldl_crcBit_eq_iterate c b le_rfl, BitVec.setWidth_eq]

/-- Settles O7: both forms are eight shift steps on the register with the byte added. -/
theorem crcUpdIsBothForms : Obligations.CrcUpdIsBothForms := by
  intro s b
  rw [← lo8_eq_setWidth]
  exact ⟨rfl, crcStep_eq_crcSerial s.crcReg b⟩

/-! ### Byte sequences (R127) -/

theorem iterate_crcShift_injective (n : Nat) : Function.Injective crcShift^[n] := crcShift_injective.iterate n

/-- The register after a byte depends on all of the register before it. -/
theorem crcStep_left_injective (b : Byte) : Function.Injective fun c => crcStep c b := by
  intro c d h
  simp only [crcStep_eq_iterate] at h
  exact (BitVec.xor_left_inj _).mp (iterate_crcShift_injective 8 h)

/-- The register after a byte depends on all of the byte. -/
theorem crcStep_right_injective (c : Half) : Function.Injective (crcStep c) := by
  intro b b' h
  simp only [crcStep_eq_iterate] at h
  have hword : b.setWidth 16 = b'.setWidth 16 := (BitVec.xor_right_inj _).mp (iterate_crcShift_injective 8 h)
  simpa using congrArg (BitVec.setWidth 8) hword

/-- Different registers stay different over any byte sequence. -/
theorem crcFrom_injective (p : List Byte) : Function.Injective fun c => crcFrom c p := by
  induction p with
  | nil => exact Function.injective_id
  | cons b p ih => exact ih.comp (crcStep_left_injective b)

theorem crcOut_injective : Function.Injective crcOut := fun _ _ h => (BitVec.xor_left_inj _).mp h

/-- Settles O11: the changed byte changes the register, and neither the bytes after it nor the read-out lose the
difference. -/
theorem crcSeesEveryOneByteChange : Obligations.CrcSeesEveryOneByteChange := by
  intro p q b b' hne h
  have hreg := crcOut_injective h
  rw [crcFrom_append, crcFrom_append, crcFrom_cons, crcFrom_cons] at hreg
  exact hne (crcStep_right_injective _ (crcFrom_injective q hreg))

/-! ### The residue (R130) -/

/-- Two bytes are taken as one half, low byte first: sixteen shift steps on the register with the half added. -/
theorem crcFrom_pair (c : Half) (lo hi : Byte) : crcFrom c [lo, hi] = crcShift^[16] (c ^^^ half lo hi) := by
  rw [crcFrom_cons, crcFrom_cons, crcFrom_nil, crcStep_eq_iterate, crcStep_eq_iterate,
    iterate_crcShift_xor_shifted _ (setWidth_fits hi (by decide)), BitVec.xor_assoc, ← half_eq_xor,
    ← Function.iterate_add_apply]

/-- The residue is what sixteen shift steps make of a register of ones. -/
theorem iterate_crcShift_ones : crcShift^[16] (BitVec.allOnes 16) = 0xF0B8 := by
  simp [Function.iterate_succ_apply', crcShift, Config.crcPolyReflected]

/-- Two bytes leave the residue exactly when they are the bytes of the complemented register. -/
theorem crcFrom_pair_eq_residue_iff (c : Half) (lo hi : Byte) : crcFrom c [lo, hi] = 0xF0B8 ↔ half lo hi = ~~~c := by
  have hones : c ^^^ ~~~c = BitVec.allOnes 16 := by
    rw [← BitVec.not_xor_right, BitVec.xor_self, BitVec.not_zero]
  rw [crcFrom_pair, ← iterate_crcShift_ones, (iterate_crcShift_injective 16).eq_iff, ← hones, BitVec.xor_right_inj]

/-- A half is given by its two bytes. -/
theorem half_eq_iff (lo hi : Byte) (v : Half) : half lo hi = v ↔ lo8 v = lo ∧ hi8 v = hi := by
  constructor
  · rintro rfl
    exact ⟨lo8_half lo hi, hi8_half lo hi⟩
  · rintro ⟨rfl, rfl⟩
    exact half_lo8_hi8 v

/-- Settles O10: the shifts lose nothing, so only the right checksum leaves the residue. -/
theorem residueTestAcceptsTheSameFrames : Obligations.ResidueTestAcceptsTheSameFrames := by
  intro p lo hi
  rw [crcFrom_append, crcFrom_pair_eq_residue_iff, ← crcOut_eq_not]
  exact half_eq_iff lo hi (crc16 p)

/-- Settles O9: the payload's own checksum passes the test of O10. -/
theorem crcResidueIsConstant : Obligations.CrcResidueIsConstant := by
  intro p
  have hres : crcFrom 0xFFFF (fetBody p) = 0xF0B8 :=
    (residueTestAcceptsTheSameFrames p (lo8 (crc16 p)) (hi8 (crc16 p))).mpr ⟨rfl, rfl⟩
  exact ⟨hres, congrArg crcOut hres⟩

/-! ### Seed and read-out (R124, R126) -/

/-- Settles O6. -/
theorem crcInitSeedsAndFinComplements : Obligations.CrcInitSeedsAndFinComplements := by
  refine ⟨rfl, rfl, fun s => ⟨rfl, ?_⟩⟩
  rw [← crcOut_eq_not]
  rfl

end Sys2Proof.Machine
end

section
/-! Unit `SUM` (41_checksum_sum8.md): the register counts modulo 256, so what R141 to R143 and R147 say of it are facts
about sums of naturals. -/

namespace Sys2Proof.Machine

/-! ### The checksum (R147) -/

/-- Sequences of the same sum have the same checksum. -/
theorem sum8_eq_of_sum_eq {p q : List Byte} (h : (p.map BitVec.toNat).sum = (q.map BitVec.toNat).sum) :
    sum8 p = sum8 q := by
  apply BitVec.eq_of_toNat_eq
  rw [sum8_toNat, sum8_toNat, h]

/-- Settles O14: the sum of naturals has the three laws, and the checksum sees nothing else of the sequence. -/
theorem sum8IsAdditiveAndBlindToOrder : Obligations.Sum8IsAdditiveAndBlindToOrder := by
  refine ⟨fun p q hperm => ?order, fun p q => ?append, fun p q => ?zero⟩
  case order => exact sum8_eq_of_sum_eq (hperm.map _).sum_eq
  case append => rw [sum8_toNat, sum8_toNat, sum8_toNat, List.map_append, List.sum_append, Nat.add_mod]
  case zero => exact sum8_eq_of_sum_eq (by simp)

/-! ### The operations (R141 to R143) -/

/-- A stimulus word with its operand is the code's word plus the operand, for the operand fits below the code (R104). -/
theorem stimulusWord_eq_add (c d : Byte) : stimulusWord c d = stimulusWord c 0 + d.setWidth 16 := by
  have hcode : stimulusWord c 0 = c.setWidth 16 <<< 8 := by simp [stimulusWord, half]
  have hdisjoint : c.setWidth 16 <<< 8 &&& d.setWidth 16 = 0 := by
    apply BitVec.eq_of_getLsbD_eq
    intro i _
    by_cases h : i < 8
    · simp [h]
    · simp [BitVec.getLsbD_of_ge d i (by omega)]
  rw [hcode, BitVec.add_eq_or_of_and_eq_zero _ _ hdisjoint, BitVec.or_comm]
  rfl

/-- Settles O12: each word is the encoding of its operation, and the three next states are the operations' definitions. -/
theorem sumClearsAddsAndReports : Obligations.SumClearsAddsAndReports := by
  intro s b
  have hword : (0x2100 : Half) + b.setWidth 16 = stimulusWord 0x21 b := (stimulusWord_eq_add 0x21 b).symm
  have hupd : decode (.word (0x2100 + b.setWidth 16)) = .ok (.sumUpd b) := by
    rw [hword]
    exact decode_encode (i := .sumUpd b) rfl
  exact ⟨rfl, hupd, rfl, rfl, ⟨sumStep s.sumReg b, rfl, BitVec.toNat_add _ _⟩, rfl⟩

end Sys2Proof.Machine
end

section
/-! Units `FTX` and `GTX` as the host drives them: handing in payloads and frames (R150, R160, R230 to R232), the FET
transmit step by position (R151 to R159), the whole frame it sends (R161), and steps the transport refuses (R334). -/

namespace Sys2Proof.Machine

/-! ### Pushes (R150, R230) -/

/-- The word of a code plus its operand byte decodes to the operation so encoded (R104, R105). -/
theorem decode_code_add {c d : Byte} {i : Instr} (hi : i.WellFormed) (he : encode i = .word (stimulusWord c d)) :
    decode (.word (stimulusWord c 0 + d.setWidth 16)) = .ok i := by
  rw [← stimulusWord_eq_add, ← he, decode_encode hi]

/-- Where one buffer has grown by the byte `b` at its end and no other has changed, `MemRead` finds `b` at the old count
and the old byte everywhere else. -/
theorem memRead_of_append {s t : State} {x : Buf} {b : Byte} (hx : t.bytes x = s.bytes x ++ [b])
    (hrest : ∀ y, y ≠ x → t.bytes y = s.bytes y) :
    t.memRead x (s.bytes x).length = some b ∧
      ∀ y k, ¬(y = x ∧ k = (s.bytes x).length) → t.memRead y k = s.memRead y k := by
  unfold State.memRead
  refine ⟨by rw [hx, List.getElem?_concat_length], fun y k hne => ?_⟩
  by_cases hy : y = x
  · subst hy
    have hk : k ≠ (s.bytes y).length := fun hk => hne ⟨rfl, hk⟩
    rw [hx, List.getElem?_append]
    split_ifs with hlt
    · rfl
    · rw [List.getElem?_eq_none (by simp; omega), List.getElem?_eq_none (by omega)]
  · rw [hrest y hy]

/-- Settles O15: a push is refused or appends to its staging buffer, which no other buffer shares. -/
theorem pushStagesOneByte : Obligations.PushStagesOneByte := by
  intro s b
  refine ⟨decode_code_add (c := 0x30) (i := .ftxPush b) rfl rfl,
    decode_code_add (c := 0x60) (i := .gtxPush b) rfl rfl,
    fun hfull => congrArg Host.Outcome.next (if_pos hfull),
    fun hroom => ⟨_, congrArg Host.Outcome.next (if_neg hroom), rfl, ?ftx⟩,
    fun hfull => congrArg Host.Outcome.next (if_pos hfull),
    fun hroom => ⟨_, congrArg Host.Outcome.next (if_neg hroom), rfl, ?gtx⟩⟩
  case ftx =>
    refine memRead_of_append (x := .ftxStage) rfl fun y hy => ?_
    cases y with
    | ftxStage => exact absurd rfl hy
    | _ => rfl
  case gtx =>
    refine memRead_of_append (x := .gtxStage) rfl fun y hy => ?_
    cases y with
    | gtxStage => exact absurd rfl hy
    | _ => rfl

/-! ### Enqueues (R160, R231, R232) -/

/-- Settles O16: an enqueue is refused or appends one frame, after which the queue is not empty. -/
theorem enqueueAppendsOneFrame : Obligations.EnqueueAppendsOneFrame := by
  intro s b
  have hftx : ∀ f, s.ftx.q ++ [f] ≠ [] := fun f => List.append_ne_nil_of_right_ne_nil _ (List.cons_ne_nil f [])
  have hgtx : ∀ f, s.gtx.q ++ [f] ≠ [] := fun f => List.append_ne_nil_of_right_ne_nil _ (List.cons_ne_nil f [])
  exact ⟨rfl, rfl, decode_code_add (c := 0x62) (i := .gtxEnqu b) rfl rfl,
    fun hfull => congrArg Host.Outcome.next (if_pos hfull),
    fun hroom => ⟨_, congrArg Host.Outcome.next (if_neg hroom), (ftxWantWrite_iff _).mpr (hftx _), rfl⟩,
    fun hfull => ⟨congrArg Host.Outcome.next (if_pos hfull), congrArg Host.Outcome.next (if_pos hfull)⟩,
    fun hroom => ⟨⟨_, congrArg Host.Outcome.next (if_neg hroom), (gtxWantWrite_iff _).mpr (hgtx _), rfl⟩,
      ⟨_, congrArg Host.Outcome.next (if_neg hroom), (gtxWantWrite_iff _).mpr (hgtx _), rfl⟩⟩⟩

/-! ### Refused transmit steps (R151, R234) -/

/-- `FTX.STEP` with nothing queued, or the transport not ready (R151). -/
theorem exec_ftxStep_of_refused {s : State} {r : Bool} (h : s.ftx.q = [] ∨ r = false) :
    exec (.ftxStep r) s = .next (s.quiet.answer .noByte) := by
  obtain ⟨-, heq⟩ | ⟨f, rest, hq, hr, -⟩ := execFtxStep_cases r s
  · exact heq
  · simp [hq, hr] at h

/-- `GTX.STEP` with nothing queued, or the transport not ready (R234). -/
theorem exec_gtxStep_of_refused {s : State} {r : Bool} (h : s.gtx.q = [] ∨ r = false) :
    exec (.gtxStep r) s = .next (s.quiet.answer .noByte) := by
  obtain ⟨-, heq⟩ | ⟨f, rest, hq, hr, -⟩ := execGtxStep_cases r s
  · exact heq
  · simp [hq, hr] at h

/-- Settles O17: with the queue empty or the transport not ready the step is no accepted one. -/
theorem refusedTransmitStepChangesNothing : Obligations.RefusedTransmitStepChangesNothing :=
  fun _ _ => ⟨exec_ftxStep_of_refused, exec_gtxStep_of_refused⟩

/-! ### The accepted FET step by position (R152 to R159) -/

/-- `ftx_byte` has a byte at the payload's positions and at the two of the checksum (R153). -/
theorem ftxByte_eq_some_iff (p : List Byte) (ck : Half) (k : Nat) (b : Byte) :
    ftxByte p ck k = some b ↔
      (1 ≤ k ∧ k ≤ p.length ∧ p[k - 1]? = some b) ∨ (k = p.length + 1 ∧ b = lo8 ck) ∨
        (k = p.length + 2 ∧ b = hi8 ck) := by
  unfold ftxByte
  split_ifs with hzero hpay hlo hhi
  · simp [hzero]
  · have hone : 1 ≤ k := Nat.one_le_iff_ne_zero.mpr hzero
    have hnlo : k ≠ p.length + 1 := by omega
    have hnhi : k ≠ p.length + 2 := by omega
    simp [hone, hpay, hnlo, hnhi]
  · simp [hlo, eq_comm]
  · simp [hhi, eq_comm]
  · simp [hpay, hlo, hhi]

/-- The byte's position lies strictly between the two sentinels' (R153). -/
theorem ftxByte_pos {p : List Byte} {ck : Half} {k : Nat} {b : Byte} (h : ftxByte p ck k = some b) :
    k ≠ 0 ∧ k ≠ p.length + 3 := by
  obtain ⟨hlo, hhi, -⟩ | ⟨hk, -⟩ | ⟨hk, -⟩ := (ftxByte_eq_some_iff p ck k b).mp h <;> omega

section Step
variable {s : State} {f : Frame} {rest : List Frame}

/-- An accepted step at position 0 is `SOF` (R154). -/
theorem exec_ftxStep_of_pos_zero (hq : s.ftx.q = f :: rest) (hpos : s.ftx.pos = 0) :
    exec (.ftxStep true) s = .next (ftxSof (ftxCache f s.quiet)) := by
  rw [exec_ftxStep_of_cons hq]
  exact if_pos (by rw [ftxCache_ftx]; exact hpos)

/-- With byte `b` at the position, an accepted step sends it in one of three ways (R155 to R158). -/
theorem ftxAccepted_of_ftxByte {b : Byte} (hb : ftxByte f.payload s.ftx.ck s.ftx.pos = some b) :
    ftxAccepted f rest s =
      .next (if s.ftx.esc then ftxEsc2 b s else if fetReserved b then ftxEsc1 s else ftxPlain b s) := by
  obtain ⟨hzero, hend⟩ := ftxByte_pos hb
  rw [ftxAccepted, if_neg hzero, if_neg hend, hb]

/-- The same for the whole operation, which caches the checksum first (R152). -/
theorem exec_ftxStep_of_ftxByte (hq : s.ftx.q = f :: rest) {b : Byte}
    (hb : ftxByte f.payload (s.ftx.cached f).ck s.ftx.pos = some b) :
    exec (.ftxStep true) s = .next (if s.ftx.esc then ftxEsc2 b (ftxCache f s.quiet)
      else if fetReserved b then ftxEsc1 (ftxCache f s.quiet) else ftxPlain b (ftxCache f s.quiet)) := by
  rw [exec_ftxStep_of_cons hq, ftxAccepted_of_ftxByte (by rw [ftxCache_ftx]; exact hb), ftxCache_ftx]
  rfl

end Step

/-- Settles O18: the dispatch of R151 on the position, each case on the state with the checksum cached (R152). -/
theorem ftxAcceptedStepByPosition : Obligations.FtxAcceptedStepByPosition := by
  intro s f rest hq ck u
  refine ⟨fun hpos => ?sof, fun b hb => ?byte, fun hpos => ?eof⟩
  case sof => rw [exec_ftxStep_of_pos_zero hq hpos, ftxCache_eq]; rfl
  case eof => rw [exec_ftxStep_retires hq hpos, ftxCache_eq]; rfl
  case byte =>
    have hstep := exec_ftxStep_of_ftxByte hq ((ftxByte_eq_some_iff f.payload ck s.ftx.pos b).mpr hb)
    rw [ftxCache_eq] at hstep
    refine ⟨fun hesc hres => ?esc1, fun hesc => ?esc2, fun hesc hne hne' => ?plain⟩
    case esc1 => rw [hstep, if_neg (ne_true_of_eq_false hesc), if_pos ((fetReserved_iff b).mpr hres)]; rfl
    case esc2 => rw [hstep, if_pos hesc]; rfl
    case plain =>
      have hres : ¬fetReserved b = true := fun h => ((fetReserved_iff b).mp h).elim hne hne'
      rw [hstep, if_neg (ne_true_of_eq_false hesc), if_neg hres]; rfl

/-! ### A whole FET frame (R161) -/

/-- Settles O20: the run that sends the head frame is as long as the encoded frame. -/
theorem ftxStepsEmitTheEncodedFrame : Obligations.FtxStepsEmitTheEncodedFrame := by
  intro s f rest hq hpos hesc hck
  obtain ⟨rs, hsends, hwire, hev⟩ := fet_sends_frame hq hpos hesc hck
  have hlen : rs.length = (fetEncode f.payload).length := by simpa using congrArg List.length hwire
  obtain ⟨t, hrun, ht⟩ := Yields.of_sends hsends
  exact ⟨t, rs, hlen ▸ hrun, hwire, hev, ht⟩

/-! ### Patterns of readiness (R151, R246, R334) -/

/-- What the environment has of a run: the state it ends in but for the last report, the bytes and the events. -/
def observed (is : List Instr) (s : State) : Option (State × List Byte × List Event) :=
  (runAll is s).map fun r => (r.1.silent, wireBytes r.2, events r.2)

/-- What a report puts before a later run's bytes and events. -/
def Report.before (r : Report) (o : State × List Byte × List Event) : State × List Byte × List Event :=
  (o.1, wireBytes [r] ++ o.2.1, events [r] ++ o.2.2)

/-- A run shows what its first operation reports, then what the rest shows. -/
theorem observed_cons_of_next {i : Instr} {s t : State} (h : exec i s = .next t) (is : List Instr) :
    observed (i :: is) s = (observed is t).map t.report.before := by
  simp only [observed, runAll, h, Option.map_map]
  congr 1
  funext r
  simp [Report.before, ← wireBytes_append, ← events_append]

/-- A run does not depend on the last report before it (log entry 4). -/
theorem observed_congr_silent {s t : State} (h : s.silent = t.silent) (is : List Instr) :
    observed is s = observed is t := by
  cases is with
  | nil => simp [observed, runAll, h]
  | cons i is => simp only [observed, runAll, exec_congr_silent h i]

/-- Sequences that show the same from every state do so after any operation. -/
theorem observed_cons_congr {is js : List Instr} (h : ∀ s, observed is s = observed js s) (i : Instr) (s : State) :
    observed (i :: is) s = observed (i :: js) s := by
  cases hi : exec i s with
  | next t => rw [observed_cons_of_next hi, observed_cons_of_next hi, h]
  | fault r => simp [observed, runAll, hi]
  | refused r => simp [observed, runAll, hi]

/-- An operation that reports `none` and changes nothing leaves no trace in a run. -/
theorem observed_cons_of_noByte {i : Instr} {s : State} (h : exec i s = .next (s.quiet.answer .noByte))
    (is : List Instr) : observed (i :: is) s = observed is s := by
  have hbefore : (s.quiet.answer .noByte).report.before = id := rfl
  rw [observed_cons_of_next h, hbefore, Option.map_id_fun, id]
  exact observed_congr_silent (s := s.quiet.answer .noByte) (t := s) rfl is

/-- Where `op false` always reports `none` and changes nothing, a pattern shows what its accepted steps show. -/
theorem observed_filter_ready {op : Bool → Instr} (hop : ∀ s, exec (op false) s = .next (s.quiet.answer .noByte))
    (pattern : List Bool) (s : State) :
    observed (pattern.map op) s = observed ((pattern.filter id).map op) s := by
  induction pattern generalizing s with
  | nil => rfl
  | cons r pattern ih =>
    cases r with
    | true => exact observed_cons_congr ih (op true) s
    | false => exact (observed_cons_of_noByte (hop s) _).trans (ih s)

/-- Settles O23, by induction on the pattern: a refused step leaves no trace, wherever it stands. -/
theorem readinessPatternIsInvisible : Obligations.ReadinessPatternIsInvisible := fun pattern s =>
  ⟨observed_filter_ready (fun _ => exec_ftxStep_of_refused (.inr rfl)) pattern s,
    observed_filter_ready (fun _ => exec_gtxStep_of_refused (.inr rfl)) pattern s⟩

end Sys2Proof.Machine
end

section
/-! The FET decoder (43_fet_decoder.md): what one received byte does in each case of R170, and a whole frame fed to it
(R184). -/

namespace Sys2Proof.Machine

/-! ### The buffer at the end of a frame (R176) -/

theorem frxPayload_append (p : List Byte) (lo hi : Byte) : frxPayload (p ++ [lo, hi]) = p := by
  simp [frxPayload]

theorem frxRck_append (p : List Byte) (lo hi : Byte) : frxRck (p ++ [lo, hi]) = half lo hi := by
  simp [frxRck]

/-- Two assembled bytes or more are a payload and two checksum bytes. -/
theorem exists_eq_append_pair {buf : List Byte} (h : 2 ≤ buf.length) :
    ∃ (p : List Byte) (lo hi : Byte), buf = p ++ [lo, hi] := by
  obtain ⟨lo, hi, hpair⟩ := List.length_eq_two.mp (show (buf.drop (buf.length - 2)).length = 2 by simp; omega)
  exact ⟨buf.take (buf.length - 2), lo, hi, by rw [← hpair, List.take_append_drop]⟩

/-- The test of R176 is passed by a payload with its own checksum alone. -/
theorem eq_fetBody_of_frxRck {buf : List Byte} (h : 2 ≤ buf.length) (hck : crc16 (frxPayload buf) = frxRck buf) :
    buf = fetBody (frxPayload buf) := by
  obtain ⟨p, lo, hi, rfl⟩ := exists_eq_append_pair h
  rw [frxPayload_append, frxRck_append] at hck
  rw [frxPayload_append, fetBody, hck, lo8_half, hi8_half]

/-! ### One received FET byte, case by case (R171 to R183) -/

section Cases
variable {s : State} {b : Byte}

/-- `s` after error entry `e` on the FET link with `n` bytes discarded (R300). -/
def State.fetDiscarded (s : State) (e : Err) (n : Nat) : State :=
  { s with
    frx := Frx.reset
    stats := { s.stats with
      fetDiscFrames := s.stats.fetDiscFrames + 1, fetDiscBytes := s.stats.fetDiscBytes + n }
    report := { result := .nothing, event := some (.err e n) } }

/-- `s` after byte `v` has been stored, or has found no room (R183). -/
def State.fetStored (s : State) (v : Byte) : State :=
  if s.frx.cnt = s.params.fetRxCap then s.fetDiscarded .fetOverflow s.frx.cnt
  else { s with frx := { s.frx with buf := s.frx.buf ++ [v], esc := false }, report := Report.empty }

theorem quiet_raise_fet {e : Err} (he : e.unit = .frx) (n : Nat) : s.quiet.raise e n = s.fetDiscarded e n :=
  raise_fet s.quiet e n he

/-- A byte stored with no escape pending any more is appended or overflows. -/
theorem frxStore_quiet (v : Byte) :
    frxStore v { s.quiet with frx := { s.frx with esc := false } } = s.fetStored v := by
  obtain ⟨hfull, heq⟩ | ⟨hroom, heq⟩ := frxStore_cases v { s.quiet with frx := { s.frx with esc := false } }
  · exact heq.trans ((raise_fet _ _ _ rfl).trans (if_pos hfull).symm)
  · exact heq.trans (if_neg hroom).symm

/-- A byte other than the sentinel is skipped in `HUNT` (R171). -/
theorem frxReceive_stray_of_hunt (hm : s.frx.mode = .hunt) (hb : b ≠ Config.fetSentinel) : frxReceive b s = s := by
  simp [frxReceive, hm, hb]

/-- A sentinel in `ASSEMBLE` closes what was assembled (R173 to R178). -/
theorem frxReceive_sentinel_of_assemble (hm : s.frx.mode = .assemble) :
    frxReceive Config.fetSentinel s = frxClose s := by
  simp [frxReceive, hm]

/-- A sentinel with nothing assembled is taken as an opening one (R174). -/
theorem frxClose_of_nil (he : s.frx.esc = false) (hbuf : s.frx.buf = []) : frxClose s = s := by
  simp [frxClose, he, hbuf]

/-- One byte is too short for a frame (R175). -/
theorem frxClose_of_short (he : s.frx.esc = false) (hc : s.frx.cnt = 1) : frxClose s = s.raise .fetShort 1 := by
  simp [frxClose, he, hc]

/-- The received checksum is compared with that of the payload before it (R176 to R178). -/
theorem frxClose_of_append (he : s.frx.esc = false) {p : List Byte} {lo hi : Byte} (hbuf : s.frx.buf = p ++ [lo, hi]) :
    frxClose s =
      if lo8 (crc16 p) = lo ∧ hi8 (crc16 p) = hi then
        ({ s.countFrame .fetRxFrames .fetRxBytes p.length with frx := { s.frx with buf := [] } }).deliver .frx p
      else s.raise .fetCksum (p.length + 2) := by
  have hcnt : s.frx.cnt = p.length + 2 := by simp [Frx.cnt, hbuf]
  have hclose : frxClose s = frxValidate s := by simp [frxClose, he, hcnt]
  rw [hclose, frxValidate, hcnt, hbuf, frxPayload_append, frxRck_append]
  simp only [← half_eq_iff, eq_comm (a := crc16 p), Nat.add_sub_cancel]

theorem exec_frxByte_sentinel_of_assemble (hm : s.frx.mode = .assemble) :
    exec (.frxByte Config.fetSentinel) s = .next (frxClose s.quiet) := by
  rw [exec_of_fetWireByte s rfl, frxReceive_sentinel_of_assemble (s := s.quiet) hm]

/-- A sentinel right after an escape introducer aborts the frame (R173). -/
theorem exec_frxByte_of_abort (hm : s.frx.mode = .assemble) (he : s.frx.esc = true) :
    exec (.frxByte Config.fetSentinel) s = .next (s.fetDiscarded .fetAbort s.frx.cnt) := by
  have hclose : frxClose s.quiet = s.quiet.raise .fetAbort s.frx.cnt := if_pos he
  rw [exec_frxByte_sentinel_of_assemble hm, hclose, quiet_raise_fet rfl]

/-- A sentinel with nothing assembled changes nothing (R174). -/
theorem exec_frxByte_of_nil (hm : s.frx.mode = .assemble) (he : s.frx.esc = false) (hbuf : s.frx.buf = []) :
    exec (.frxByte Config.fetSentinel) s = .next s.quiet := by
  rw [exec_frxByte_sentinel_of_assemble hm, frxClose_of_nil (s := s.quiet) he hbuf]

/-- A sentinel after a single byte discards it (R175). -/
theorem exec_frxByte_of_short (hm : s.frx.mode = .assemble) (he : s.frx.esc = false) (hc : s.frx.cnt = 1) :
    exec (.frxByte Config.fetSentinel) s = .next (s.fetDiscarded .fetShort 1) := by
  rw [exec_frxByte_sentinel_of_assemble hm, frxClose_of_short (s := s.quiet) he hc, quiet_raise_fet rfl]

/-- A sentinel after two bytes or more delivers the payload or discards all of them, as the checksum decides (R176 to
R178). -/
theorem exec_frxByte_of_append (hm : s.frx.mode = .assemble) (he : s.frx.esc = false) {p : List Byte} {lo hi : Byte}
    (hbuf : s.frx.buf = p ++ [lo, hi]) :
    exec (.frxByte Config.fetSentinel) s = .next (
      if lo8 (crc16 p) = lo ∧ hi8 (crc16 p) = hi then
        ({ s.quiet.countFrame .fetRxFrames .fetRxBytes p.length with frx := { s.frx with buf := [] } }).deliver .frx p
      else s.fetDiscarded .fetCksum (p.length + 2)) := by
  rw [exec_frxByte_sentinel_of_assemble hm, frxClose_of_append (s := s.quiet) he hbuf, quiet_raise_fet rfl]
  rfl

/-- The second byte of an escape pair is stored unescaped (R182, R183). -/
theorem exec_frxByte_of_escaped (hm : s.frx.mode = .assemble) (he : s.frx.esc = true) (hb : b ≠ Config.fetSentinel) :
    exec (.frxByte b) s = .next (s.fetStored (b ^^^ Config.escXor)) := by
  rw [exec_of_fetWireByte s rfl, frxReceive_of_escaped (s := s.quiet) hm he hb]
  exact congrArg _ (frxStore_quiet _)

/-- A byte that is not reserved is stored as it is (R180, R183). -/
theorem exec_frxByte_of_plain (hm : s.frx.mode = .assemble) (he : s.frx.esc = false) (hb : b ≠ Config.fetSentinel)
    (hx : b ≠ Config.fetEscape) : exec (.frxByte b) s = .next (s.fetStored b) := by
  have hs : { s.quiet with frx := { s.frx with esc := false } } = s.quiet := by rw [← he]; rfl
  rw [exec_of_fetWireByte s rfl, frxReceive_data_of_assemble (s := s.quiet) hm he hb hx, ← frxStore_quiet, hs]

end Cases

/-- Settles O24: the mode, the byte, the pending escape and the buffer select one branch of R170 each. -/
theorem fetByteByStateAndClass : Obligations.FetByteByStateAndClass := by
  intro b s
  have hrun : exec (.frxByte b) s = .next (frxReceive b s.quiet) := exec_of_fetWireByte s rfl
  refine ⟨?opens, ?strays, ?aborts, ?reopens, ?short, ?frame, exec_frxByte_of_escaped, ?escape, exec_frxByte_of_plain⟩
  case opens =>
    rintro hm rfl
    exact hrun.trans (congrArg _ (frxReceive_sentinel_of_hunt (s := s.quiet) hm))
  case strays =>
    intro hm hb
    exact hrun.trans (congrArg _ (frxReceive_stray_of_hunt (s := s.quiet) hm hb))
  case aborts =>
    rintro hm rfl he
    exact exec_frxByte_of_abort hm he
  case reopens =>
    rintro hm rfl he hbuf
    exact exec_frxByte_of_nil hm he hbuf
  case short =>
    rintro hm rfl he hc
    exact exec_frxByte_of_short hm he hc
  case frame =>
    rintro p lo hi hm rfl he hbuf
    have hframe := exec_frxByte_of_append hm he hbuf
    exact ⟨fun hck => hframe.trans (congrArg _ (if_pos hck)), fun hck => hframe.trans (congrArg _ (if_neg hck))⟩
  case escape =>
    rintro hm he rfl
    exact hrun.trans (congrArg _ (frxReceive_escape_of_assemble (s := s.quiet) hm he))

/-- Settles O30: sentinel, body and sentinel are received one after another. -/
theorem fetFrameRoundTrip : Obligations.FetFrameRoundTrip := by
  intro p s hbuf hesc hroom
  obtain ⟨rs, ⟨t, hrun, ht⟩, hev⟩ := fet_receives_frame p hbuf hesc hroom
  exact ⟨t, rs, hrun, hev, ht⟩

end Sys2Proof.Machine
end

section
/-! The event an operation can report (R305, R306), and what the receivers hold when it is a delivery (R185, R212). -/

namespace Sys2Proof.Machine

/-! ### Errors and retirements -/

theorem raise_event (s : State) (e : Err) (n : Nat) : (s.raise e n).report.event = some (.err e n) := by
  unfold State.raise
  split <;> rfl

/-- The event of one accepted FET step is the head frame's retirement, or none. -/
theorem ftxAccept_event {f : Frame} {rest : List Frame} {u u' : Ftx} {ev : Option Event}
    (h : FtxAccept f rest u u' ev) : ev = none ∨ ev = some .ftxRetired := by
  cases h with
  | eof => exact .inr rfl
  | _ => exact .inl rfl

/-- The event of one accepted RSP step is the head frame's retirement, or none. -/
theorem gtxAccept_event {f : TaggedFrame} {rest : List TaggedFrame} {u u' : Gtx} {ev : Option Event}
    (h : GtxAccept f rest u u' ev) : ev = none ∨ ev = some .gtxRetired := by
  cases h with
  | bare | low => exact .inr rfl
  | _ => exact .inl rfl

theorem execFtxStep_event {r : Bool} {s t : State} (h : execFtxStep r s = .next t) :
    t.report.event = none ∨ t.report.event = some .ftxRetired := by
  obtain ⟨-, heq⟩ | ⟨f, rest, -, -, heq⟩ := execFtxStep_cases r s
  · cases heq.symm.trans h
    exact .inl rfl
  · exact ftxAccept_event (ftxAccepted_accept (by rw [ftxCache_report]; rfl) (heq.symm.trans h))

theorem execGtxStep_event {r : Bool} {s t : State} (h : execGtxStep r s = .next t) :
    t.report.event = none ∨ t.report.event = some .gtxRetired := by
  obtain ⟨-, heq⟩ | ⟨f, rest, hq, -, heq⟩ := execGtxStep_cases r s
  · cases heq.symm.trans h
    exact .inl rfl
  · exact gtxAccept_event (gtxAccepted_accept (s := s.quiet) rfl hq (heq.symm.trans h))

/-! ### Receptions -/

/-- What `FRX` can report when it receives byte `b` in unit state `u`. -/
inductive FrxReports (b : Byte) (u : Frx) : Option Event → Prop where
  /-- Nothing: the byte is skipped, opens a frame, or is assembled. -/
  | nothing : FrxReports b u none
  /-- A discarded frame (R300). -/
  | error (e : Err) (n : Nat) (he : e.unit = .frx) : FrxReports b u (some (.err e n))
  /-- A delivered payload (R177). -/
  | delivery (p : List Byte) (hb : b = Config.fetSentinel) (hm : u.mode = .assemble) (he : u.esc = false)
      (hbuf : u.buf = fetBody p) : FrxReports b u (some (.deliver .frx p))

/-- What `GRX` can report when it receives byte `b` in unit state `u`. -/
inductive GrxReports (b : Byte) (u : Grx) : Option Event → Prop where
  /-- Nothing: the byte is skipped, opens or ends a payload, is assembled, or is a first digit. -/
  | nothing : GrxReports b u none
  /-- An acknowledgement (R204). -/
  | ack (hb : b = Config.rspAck) (hm : u.mode = .idle) : GrxReports b u (some .ack)
  /-- A negative acknowledgement (R205). -/
  | nak (hb : b = Config.rspNak) (hm : u.mode = .idle) : GrxReports b u (some .nak)
  /-- A discarded frame (R300). -/
  | error (e : Err) (n : Nat) (he : e.unit = .grx) : GrxReports b u (some (.err e n))
  /-- A delivered payload (R212). -/
  | delivery (d : Byte) (hb : hexval b = some d) (hm : u.mode = .cksum) (hd : u.digit = true)
      (hsum : u.sum = u.rck ||| d) : GrxReports b u (some (.deliver .grx u.buf))

section Receivers
variable {s : State} {b : Byte}

theorem frxReports_raise {e : Err} (he : e.unit = .frx) (t : State) (n : Nat) :
    FrxReports b s.frx (t.raise e n).report.event :=
  raise_event t e n ▸ .error e n he

theorem grxReports_raise {e : Err} (he : e.unit = .grx) (t : State) (n : Nat) :
    GrxReports b s.grx (t.raise e n).report.event :=
  raise_event t e n ▸ .error e n he

theorem frxReports_store {t : State} (ht : t.report.event = none) (v : Byte) :
    FrxReports b s.frx (frxStore v t).report.event := by
  obtain ⟨-, heq⟩ | ⟨-, heq⟩ := frxStore_cases v t <;> rw [heq]
  · exact frxReports_raise rfl t _
  · exact ht ▸ .nothing

theorem frxReports_close (hs : s.report.event = none) (hm : s.frx.mode = .assemble) :
    FrxReports Config.fetSentinel s.frx (frxClose s).report.event := by
  obtain ⟨-, heq⟩ | ⟨-, -, heq⟩ | ⟨-, -, heq⟩ | ⟨he, hc, hck, heq⟩ | ⟨-, -, -, heq⟩ := frxClose_cases s <;> rw [heq]
  · exact frxReports_raise rfl s _
  · exact hs ▸ .nothing
  · exact frxReports_raise rfl s _
  · exact .delivery _ rfl hm he (eq_fetBody_of_frxRck hc hck)
  · exact frxReports_raise rfl s _

/-- From a state that has reported no event, `FRX` reports one of the three. -/
theorem frxReceive_reports (hs : s.report.event = none) (b : Byte) :
    FrxReports b s.frx (frxReceive b s).report.event := by
  obtain ⟨-, -, heq⟩ | ⟨-, -, heq⟩ | ⟨hm, rfl, heq⟩ | ⟨-, -, -, heq⟩ | ⟨-, -, -, heq⟩ | ⟨-, -, -, -, heq⟩ :=
    frxReceive_cases b s <;> rw [heq]
  · exact hs ▸ .nothing
  · exact hs ▸ .nothing
  · exact frxReports_close hs hm
  · exact frxReports_store (t := { s with frx := { s.frx with esc := false } }) hs _
  · exact hs ▸ .nothing
  · exact frxReports_store hs b

theorem grxReports_idle (hs : s.report.event = none) (hm : s.grx.mode = .idle) :
    GrxReports b s.grx (grxIdle b s).report.event := by
  obtain ⟨-, heq⟩ | ⟨hb, heq⟩ | ⟨hb, heq⟩ | ⟨-, -, -, heq⟩ := grxIdle_cases b s <;> rw [heq]
  · exact hs ▸ .nothing
  · exact .ack hb hm
  · exact .nak hb hm
  · exact hs ▸ .nothing

theorem grxReports_store {t : State} (ht : t.report.event = none) (v : Byte) :
    GrxReports b s.grx (grxStore v t).report.event := by
  obtain ⟨-, heq⟩ | ⟨-, heq⟩ := grxStore_cases v t <;> rw [heq]
  · exact grxReports_raise rfl t _
  · exact ht ▸ .nothing

theorem grxReports_payload (hs : s.report.event = none) : GrxReports b s.grx (grxPayload b s).report.event := by
  obtain ⟨-, heq⟩ | ⟨-, heq⟩ | ⟨-, -, -, heq⟩ | ⟨-, -, -, heq⟩ := grxPayload_cases b s <;> rw [heq]
  · exact hs ▸ .nothing
  · exact hs ▸ .nothing
  · exact grxReports_store (t := { s with grx := { s.grx with esc := false } }) hs _
  · exact grxReports_store hs b

theorem grxReports_cksum (hs : s.report.event = none) (hm : s.grx.mode = .cksum) :
    GrxReports b s.grx (grxCksum b s).report.event := by
  obtain ⟨-, heq⟩ | ⟨_, -, -, heq⟩ | ⟨d, hb, hd, hsum, heq⟩ | ⟨_, -, -, -, heq⟩ := grxCksum_cases b s <;> rw [heq]
  · exact grxReports_raise rfl s _
  · exact hs ▸ .nothing
  · exact .delivery d hb hm hd hsum
  · exact grxReports_raise rfl s _

/-- From a state that has reported no event, `GRX` reports one of the five. -/
theorem grxReceive_reports (hs : s.report.event = none) (b : Byte) :
    GrxReports b s.grx (grxReceive b s).report.event := by
  cases hm : s.grx.mode with
  | idle => exact grxReceive_of_idle hm ▸ grxReports_idle hs hm
  | payload => exact grxReceive_of_payload hm ▸ grxReports_payload hs
  | cksum => exact grxReceive_of_cksum hm ▸ grxReports_cksum hs hm

end Receivers

/-! ### All operations -/

/-- What operation `i` from `s` can report as its event (R305). -/
inductive ExecReports (i : Instr) (s : State) : Option Event → Prop where
  | nothing : ExecReports i s none
  | ftxRetired (r : Bool) (hi : i = .ftxStep r) : ExecReports i s (some .ftxRetired)
  | gtxRetired (r : Bool) (hi : i = .gtxStep r) : ExecReports i s (some .gtxRetired)
  | frx (b : Byte) (hi : fetWireByte i = some b) {ev : Option Event} (h : FrxReports b s.frx ev) : ExecReports i s ev
  | grx (b : Byte) (hi : rspWireByte i = some b) {ev : Option Event} (h : GrxReports b s.grx ev) : ExecReports i s ev

/-- Only a transmit step and a reception report an event. -/
theorem exec_reports {i : Instr} {s t : State} (h : exec i s = .next t) : ExecReports i s t.report.event := by
  cases i using cases_by_reception with
  | ftxStep r =>
    obtain hev | hev := execFtxStep_event h <;> rw [hev]
    · exact .nothing
    · exact .ftxRetired r rfl
  | gtxStep r =>
    obtain hev | hev := execGtxStep_event h <;> rw [hev]
    · exact .nothing
    · exact .gtxRetired r rfl
  | fetByte i b hb =>
    cases (exec_of_fetWireByte s hb).symm.trans h
    exact .frx b hb (frxReceive_reports (s := s.quiet) rfl b)
  | rspByte i b hb =>
    cases (exec_of_rspWireByte s hb).symm.trans h
    exact .grx b hb (grxReceive_reports (s := s.quiet) rfl b)
  | ftxPush | ftxEnq | gtxPush | gtxEnqw | gtxEnqu | statRead =>
    simp only [exec, execFtxPush, execFtxEnq, execGtxPush, execGtxEnqw, execGtxEnqu, execStatRead] at h
    split at h <;> cases h <;> exact .nothing
  | _ => cases h; exact .nothing

/-- Settles O27: only a reception reports a delivery, and it does so in one branch of its receive step, behind the
test. -/
theorem deliveredFramesPassedTheirCheck : Obligations.DeliveredFramesPassedTheirCheck := by
  intro i s t p h
  have hrep := exec_reports h
  constructor <;> intro hev <;> rw [hev] at hrep
  · cases hrep with
    | frx b hi hrep =>
      cases hrep with
      | delivery _ hb hm he hbuf => exact ⟨hi.trans (congrArg some hb), hm, he, hbuf⟩
    | grx b hi hrep => cases hrep
  · cases hrep with
    | frx b hi hrep => cases hrep
    | grx b hi hrep =>
      cases hrep with
      | delivery d hb hm hd hsum => exact ⟨hm, hd, rfl, b, d, hi, hb, hsum⟩

end Sys2Proof.Machine
end

section
/-! The RSP receiver (44_rsp_receiver.md): what one received byte does in each case of R200, when it reports an
acknowledgement (R204 to R206), and a whole frame fed to it (R216). -/

namespace Sys2Proof.Machine

/-- Two operations that take the same RSP wire byte do the same (R92; log entry 2). -/
theorem exec_eq_of_rspWireByte {i j : Instr} {b : Byte} (s : State) (hi : rspWireByte i = some b)
    (hj : rspWireByte j = some b) : exec i s = exec j s :=
  (exec_of_rspWireByte s hi).trans (exec_of_rspWireByte s hj).symm

/-! ### One received RSP byte, case by case (R202 to R214) -/

section Cases
variable {s : State} {b d : Byte}

/-- `s` after error entry `e` on the RSP link with `n` bytes discarded (R300). -/
def State.rspDiscarded (s : State) (e : Err) (n : Nat) : State :=
  { s with
    grx := Grx.reset
    stats := { s.stats with
      rspDiscFrames := s.stats.rspDiscFrames + 1, rspDiscBytes := s.stats.rspDiscBytes + n }
    report := { result := .nothing, event := some (.err e n) } }

/-- `s` after payload byte `v` has been stored and summed (R209), or has found no room (R210). -/
def State.rspStored (s : State) (v : Byte) : State :=
  if s.grx.cnt = s.params.rspRxCap then s.rspDiscarded .rspOverflow s.grx.cnt
  else { s with
    grx := { s.grx with buf := s.grx.buf ++ [v], sum := s.grx.sum + v, esc := false }, report := Report.empty }

/-- Error entry in a receive step, which starts with an empty report. -/
theorem quiet_raise_rsp {e : Err} (he : e.unit = .grx) (n : Nat) : s.quiet.raise e n = s.rspDiscarded e n :=
  raise_rsp s.quiet e n he

/-- A byte stored with no escape pending any more is appended and summed, or overflows. -/
theorem grxStore_quiet (v : Byte) :
    grxStore v { s.quiet with grx := { s.grx with esc := false } } = s.rspStored v := by
  obtain ⟨hfull, heq⟩ | ⟨hroom, heq⟩ := grxStore_cases v { s.quiet with grx := { s.grx with esc := false } }
  · exact heq.trans ((raise_rsp _ _ _ rfl).trans (if_pos hfull).symm)
  · exact heq.trans (if_neg hroom).symm

/-- A stray byte is skipped in `IDLE` (R202). -/
theorem grxIdle_stray (hstart : b ≠ Config.rspStart) (hack : b ≠ Config.rspAck) (hnak : b ≠ Config.rspNak) :
    grxIdle b s = s := by
  rw [grxIdle, if_neg hstart, if_neg hack, if_neg hnak]

/-- A byte other than `#` and 0x7D is data in `PAYLOAD` (R209). -/
theorem grxPayload_data (hend : b ≠ Config.rspEnd) (hescape : b ≠ Config.rspEscape) : grxPayload b s = grxData b s := by
  rw [grxPayload, if_neg hend, if_neg hescape]

/-- A data byte is unescaped if an escape is pending, and stored with none pending any more (R209). -/
theorem grxData_eq_grxStore (b : Byte) (s : State) :
    grxData b s =
      grxStore (if s.grx.esc then b ^^^ Config.escXor else b) { s with grx := { s.grx with esc := false } } := by
  cases he : s.grx.esc with
  | true => simp [grxData, he]
  | false =>
    have hs : { s with grx := { s.grx with esc := false } } = s := by rw [← he]
    simp [grxData, he, hs]

/-- A second checksum digit that makes another checksum than the payload's sum discards the frame (R213). -/
theorem grxCksum_wrong_digit (hb : hexval b = some d) (hd : s.grx.digit = true) (hs : s.grx.sum ≠ s.grx.rck ||| d) :
    grxCksum b s = s.raise .rspCksum s.grx.cnt := by
  simp [grxCksum, hb, hd, grxVerdict, hs]

/-- A byte that is no hex digit discards the frame in `CKSUM` (R214). -/
theorem grxCksum_nonhex (hb : hexval b = none) : grxCksum b s = s.raise .rspNonhex s.grx.cnt := by
  simp [grxCksum, hb]

/-- A byte that means nothing in `IDLE` changes nothing there (R202). -/
theorem exec_grxByte_stray_of_idle (hm : s.grx.mode = .idle) (hstart : b ≠ Config.rspStart) (hack : b ≠ Config.rspAck)
    (hnak : b ≠ Config.rspNak) : exec (.grxByte b) s = .next s.quiet := by
  rw [exec_of_rspWireByte s rfl, grxReceive_of_idle (s := s.quiet) hm, grxIdle_stray hstart hack hnak]

/-- A byte other than `#` and 0x7D is stored in `PAYLOAD`, unescaped if an escape was pending (R209, R210). -/
theorem exec_grxByte_data_of_payload (hm : s.grx.mode = .payload) (hend : b ≠ Config.rspEnd)
    (hescape : b ≠ Config.rspEscape) :
    exec (.grxByte b) s = .next (s.rspStored (if s.grx.esc then b ^^^ Config.escXor else b)) := by
  rw [exec_of_rspWireByte s rfl, grxReceive_of_payload (s := s.quiet) hm, grxPayload_data hend hescape,
    grxData_eq_grxStore]
  exact congrArg _ (grxStore_quiet _)

/-- A byte that is no hex digit discards the frame and all its bytes (R214). -/
theorem exec_grxByte_nonhex_of_cksum (hm : s.grx.mode = .cksum) (hb : hexval b = none) :
    exec (.grxByte b) s = .next (s.rspDiscarded .rspNonhex s.grx.cnt) := by
  rw [exec_of_rspWireByte s rfl, grxReceive_of_cksum (s := s.quiet) hm, grxCksum_nonhex hb, quiet_raise_rsp rfl]
  rfl

/-- The digit that completes the payload's sum delivers the payload (R212). -/
theorem exec_grxByte_right_digit_of_cksum (hm : s.grx.mode = .cksum) (hb : hexval b = some d)
    (hd : s.grx.digit = true) (hs : s.grx.sum = s.grx.rck ||| d) :
    exec (.grxByte b) s = .next ((s.rspDelivered s.grx.buf).quiet.deliver .grx s.grx.buf) := by
  rw [exec_of_rspWireByte s rfl, grxReceive_of_cksum (s := s.quiet) hm, grxCksum_right_digit (s := s.quiet) hb hd hs]
  rfl

/-- The digit that completes another checksum discards the frame and all its bytes (R213). -/
theorem exec_grxByte_wrong_digit_of_cksum (hm : s.grx.mode = .cksum) (hb : hexval b = some d)
    (hd : s.grx.digit = true) (hs : s.grx.sum ≠ s.grx.rck ||| d) :
    exec (.grxByte b) s = .next (s.rspDiscarded .rspCksum s.grx.cnt) := by
  rw [exec_of_rspWireByte s rfl, grxReceive_of_cksum (s := s.quiet) hm, grxCksum_wrong_digit (s := s.quiet) hb hd hs,
    quiet_raise_rsp rfl]
  rfl

end Cases

/-- Settles O25: the mode, the byte, the room left and the digits select one branch of R200 each; the bytes with a row of
their own are received as the row says. -/
theorem rspByteByStateAndClass : Obligations.RspByteByStateAndClass := by
  intro b s
  refine ⟨?start, ?ack, ?nak, exec_grxByte_stray_of_idle, ?hash, ?escape, ?room, ?full,
    exec_grxByte_nonhex_of_cksum, ?digits⟩
  case start =>
    rintro hm rfl
    exact (exec_eq_of_rspWireByte s rfl rfl).trans (exec_rspStart_of_idle hm)
  case ack =>
    rintro hm rfl
    exact (exec_eq_of_rspWireByte s rfl rfl).trans (exec_rspAck_of_idle hm)
  case nak =>
    rintro hm rfl
    exact (exec_eq_of_rspWireByte s rfl rfl).trans (exec_rspNak_of_idle hm)
  case hash =>
    rintro hm rfl
    exact (exec_eq_of_rspWireByte s rfl rfl).trans (exec_rspEnd_of_payload hm)
  case escape =>
    rintro hm rfl
    exact (exec_eq_of_rspWireByte s rfl rfl).trans (exec_rspEscape_of_payload hm)
  case room =>
    intro hm hend hescape hroom
    exact (exec_grxByte_data_of_payload hm hend hescape).trans (congrArg _ (if_neg hroom))
  case full =>
    intro hm hend hescape hfull
    exact (exec_grxByte_data_of_payload hm hend hescape).trans (congrArg _ (if_pos hfull))
  case digits =>
    intro d hm hb
    exact ⟨fun hd => (exec_eq_of_rspWireByte s rfl rfl).trans (exec_rspHexdigit_of_cksum hm hd hb),
      exec_grxByte_right_digit_of_cksum hm hb, exec_grxByte_wrong_digit_of_cksum hm hb⟩

/-! ### Acknowledgements (R204 to R206) -/

/-- Only the reception of `+` in `IDLE` reports ACK. -/
theorem rspAck_of_execReports {i : Instr} {s : State} :
    ExecReports i s (some .ack) → rspWireByte i = some Config.rspAck ∧ s.grx.mode = .idle
  | .grx _ hi (.ack hb hm) => ⟨hi.trans (congrArg some hb), hm⟩

/-- Only the reception of `-` in `IDLE` reports NAK. -/
theorem rspNak_of_execReports {i : Instr} {s : State} :
    ExecReports i s (some .nak) → rspWireByte i = some Config.rspNak ∧ s.grx.mode = .idle
  | .grx _ hi (.nak hb hm) => ⟨hi.trans (congrArg some hb), hm⟩

/-- Settles O28: of all that an operation can report, only the reception of `+` or `-` in `IDLE` is an acknowledgement,
and whatever takes such a byte does what the byte's row does. -/
theorem ackAndNakAreReportedExactlyInIdle : Obligations.AckAndNakAreReportedExactlyInIdle := by
  intro i s
  refine ⟨⟨?onlyAck, ?ack⟩, ⟨?onlyNak, ?nak⟩⟩
  case onlyAck =>
    rintro ⟨t, h, hev⟩
    exact rspAck_of_execReports (hev ▸ exec_reports h)
  case ack =>
    rintro ⟨hi, hm⟩
    exact ⟨_, (exec_eq_of_rspWireByte s hi rfl).trans (exec_rspAck_of_idle hm), rfl⟩
  case onlyNak =>
    rintro ⟨t, h, hev⟩
    exact rspNak_of_execReports (hev ▸ exec_reports h)
  case nak =>
    rintro ⟨hi, hm⟩
    exact ⟨_, (exec_eq_of_rspWireByte s hi rfl).trans (exec_rspNak_of_idle hm), rfl⟩

/-! ### A whole frame (R216) -/

/-- Settles O31: `$`, the escaped payload, `#` and the two digits of its sum are received one after another. -/
theorem rspFrameRoundTrip : Obligations.RspFrameRoundTrip := by
  intro p s hm hroom
  obtain ⟨rs, ⟨t, hrun, ht⟩, hev⟩ := rsp_receives_frame p hm hroom
  exact ⟨t, rs, hrun, hev, ht⟩

end Sys2Proof.Machine
end

section
/-! Unit `GTX` as the host steps it (45_rsp_transmitter.md): the accepted step by state (R235 to R243) and the whole
wrapped frame it sends (R244). -/

namespace Sys2Proof.Machine

/-! ### The accepted RSP step by state (R235 to R243) -/

section Step
variable {s : State} {f : TaggedFrame} {rest : List TaggedFrame}

/-- In `IDLE`, with an unwrapped head frame, an accepted step sends its byte and retires it (R235). -/
theorem exec_gtxStep_of_bare (hq : s.gtx.q = f :: rest) (hm : s.gtx.mode = .idle) (hw : f.wrapped = false) {b : Byte}
    (hb : f.payload[0]? = some b) : exec (.gtxStep true) s = .next (gtxBare b rest s.quiet) := by
  rw [exec_gtxStep_of_cons hq]
  simp [gtxAccepted, hm, hw, memRead_gtx_head s.quiet f rest hq, hb]

/-- In `IDLE`, with a wrapped head frame, an accepted step begins it (R236). -/
theorem exec_gtxStep_of_wrapped (hq : s.gtx.q = f :: rest) (hm : s.gtx.mode = .idle) (hw : f.wrapped = true) :
    exec (.gtxStep true) s = .next (gtxStart f s.quiet) := by
  rw [exec_gtxStep_of_cons hq]
  simp [gtxAccepted, hm, hw]

/-- The beginning of a wrapped frame, whole: an empty payload is at its end at once (R236). -/
theorem gtxStart_quiet_eq (f : TaggedFrame) (s : State) :
    gtxStart f s.quiet = { s with
      gtx := { s.gtx with idx := 0, esc := false, mode := if f.payload = [] then .ckb else .data }
      report := wired Config.rspStart } := by
  simp only [gtxStart, TaggedFrame.len, List.length_eq_zero_iff]
  rfl

/-- A payload byte of `RSP_TX_ESCSET` is held back behind the escape introducer (R238). -/
theorem gtxData_of_reserved {b : Byte} (hesc : s.gtx.esc = false) (hres : rspReserved b = true) :
    gtxData f b s = { s.emit Config.rspEscape with gtx := { s.gtx with esc := true } } := by
  simp [gtxData, hesc, hres]

/-- The byte held back goes out escaped, and the index advances, past the last byte to `CKB` (R239). -/
theorem gtxData_of_esc {b : Byte} (hm : s.gtx.mode = .data) (hesc : s.gtx.esc = true) :
    gtxData f b s = { s.emit (b ^^^ Config.escXor) with gtx :=
      { s.gtx with esc := false, idx := s.gtx.idx + 1, mode := if s.gtx.idx + 1 = f.len then .ckb else .data } } := by
  simp [gtxData, gtxAdvance, hesc, hm]

/-- Any other payload byte goes out as it is, and the index advances likewise (R237). -/
theorem gtxData_of_plain {b : Byte} (hm : s.gtx.mode = .data) (hesc : s.gtx.esc = false)
    (hres : ¬rspReserved b = true) :
    gtxData f b s = { s.emit b with gtx :=
      { s.gtx with idx := s.gtx.idx + 1, mode := if s.gtx.idx + 1 = f.len then .ckb else .data } } := by
  simp [gtxData, gtxAdvance, hesc, hres, hm]

end Step

/-- Settles O19: the dispatch of R234 on the state, and in `DATA` on the pending escape and the byte's class. -/
theorem gtxAcceptedStepByState : Obligations.GtxAcceptedStepByState := by
  intro s f rest hq
  refine ⟨fun hm hw b hb => ?bare, fun hm hw => ?start, fun hm b hb => ?data, fun hm => ?boundary,
    fun hm hd => ⟨_, _, rfl, ?high⟩, fun hm hd => ⟨_, _, rfl, ?low⟩⟩
  case bare => exact exec_gtxStep_of_bare hq hm hw hb
  case start => exact (exec_gtxStep_of_wrapped hq hm hw).trans (congrArg _ (gtxStart_quiet_eq f s))
  case boundary => exact exec_gtxStep_of_ckb hq hm
  case high => exact exec_gtxStep_of_first_digit hq hm hd
  case low => exact exec_gtxStep_retires_wrapped hq hm hd
  case data =>
    have hstep := exec_gtxStep_of_data hq hm hb
    refine ⟨fun hesc hres => ?esc1, fun hesc => ?esc2, fun hesc hend hstart hescape => ?plain⟩
    case esc1 => exact hstep.trans (congrArg _ (gtxData_of_reserved hesc ((rspReserved_iff b).mpr hres)))
    case esc2 => exact hstep.trans (congrArg _ (gtxData_of_esc hm hesc))
    case plain =>
      have hres : ¬rspReserved b = true := mt (rspReserved_iff b).mp (not_or.mpr ⟨hend, not_or.mpr ⟨hstart, hescape⟩⟩)
      exact hstep.trans (congrArg _ (gtxData_of_plain hm hesc hres))

/-! ### A whole wrapped frame (R244) -/

/-- Settles O21: the run that sends the wrapped head frame is as long as the encoded frame. -/
theorem gtxStepsEmitTheEncodedFrame : Obligations.GtxStepsEmitTheEncodedFrame := by
  intro s p rest hq hm
  obtain ⟨rs, hsends, hwire, hev⟩ := rsp_sends_wrapped hq hm rfl
  have hlen : rs.length = (rspEncode p).length := by simpa using congrArg List.length hwire
  obtain ⟨t, hrun, ht⟩ := Yields.of_sends hsends
  exact ⟨t, rs, hlen ▸ hrun, hwire, hev, ht⟩

end Sys2Proof.Machine
end

section
/-! The system operations (46_system_ops.md): what `SYS.RESET` leaves (R260), what a teardown leaves (R261, R262), the
parts a reset is made of (R263 e) and the counter `STAT.READ` reports (R264). -/

namespace Sys2Proof.Machine

/-! ### A reset by its parts (R263) -/

/-- The four operations that reset a part of the block each, in the order R263 (e) names them. -/
def resetParts : List Instr := [.fetTeardown, .rspTeardown, .crcInit, .sumInit]

/-- The state with the part of the block reset that the operation stands for (R124, R141, R261, R262). -/
def State.resetPart (s : State) : Instr → State
  | .fetTeardown => s.teardownFet
  | .rspTeardown => s.teardownRsp
  | .crcInit => { s with crcReg := Config.crcInit }
  | .sumInit => { s with sumReg := 0 }
  | _ => s

/-- Each of the four operations resets its part and reports nothing. -/
theorem exec_of_mem_resetParts {i : Instr} (hi : i ∈ resetParts) (s : State) :
    exec i s = .next (s.resetPart i).quiet := by
  simp only [resetParts, List.mem_cons, List.not_mem_nil, or_false] at hi
  obtain rfl | rfl | rfl | rfl := hi <;> rfl

/-- Any sequence of the four operations resets its parts one after another. -/
theorem resetParts_yield {l : List Instr} (hl : ∀ i ∈ l, i ∈ resetParts) (s : State) :
    Yields l s (l.map fun _ => Report.empty) (l.foldl State.resetPart s) := by
  induction l generalizing s with
  | nil => exact .nil rfl
  | cons i l ih =>
    obtain ⟨hi, hl⟩ := List.forall_mem_cons.mp hl
    exact (Yields.of_exec (t := s.resetPart i) (exec_of_mem_resetParts hi s) rfl rfl).append (ih hl (s.resetPart i))

/-- Resetting the one part and then the other is resetting them the other way round. -/
def PartsCommute (i j : Instr) : Prop := ∀ s : State, (s.resetPart i).resetPart j = (s.resetPart j).resetPart i

/-- The four parts are disjoint: the two links share no field of the block and no counter. -/
theorem resetParts_pairwise_commute : resetParts.Pairwise PartsCommute := by
  simp only [resetParts, List.pairwise_cons, List.forall_mem_cons]
  exact ⟨⟨fun _ => rfl, fun _ => rfl, fun _ => rfl, nofun⟩, ⟨fun _ => rfl, fun _ => rfl, nofun⟩, ⟨fun _ => rfl, nofun⟩,
    nofun, .nil⟩

/-- The order in which the four parts are reset makes no difference. -/
theorem foldl_resetPart_of_perm {l : List Instr} (h : l.Perm resetParts) (s : State) :
    l.foldl State.resetPart s = resetParts.foldl State.resetPart s := by
  have : Std.Symm PartsCommute := ⟨fun _ _ hij s => (hij s).symm⟩
  have hcomm := resetParts_pairwise_commute.forall_of_forall fun _ _ _ => rfl
  exact h.foldl_eq' (fun i hi j hj t => hcomm (h.mem_iff.mp hi) (h.mem_iff.mp hj) t) s

/-- The four parts are the whole block but the checksum caches, which the teardowns leave (log entry 8). -/
theorem foldl_resetParts_observable (s : State) :
    (resetParts.foldl State.resetPart s).observable = s.sysReset.observable := rfl

/-- What cannot be told apart but by the last report is observed alike. -/
theorem observable_congr_silent {s t : State} (h : s.silent = t.silent) : s.observable = t.observable :=
  (congrArg State.observable h :)

/-- Settles O39: the operations reset their parts one after another, in whatever order, and the parts make up the
block. -/
theorem sysResetIsTheTeardownsAndInits : Obligations.SysResetIsTheTeardownsAndInits := by
  intro l hperm s
  obtain ⟨t, hrun, ht⟩ := resetParts_yield (fun _ hi => hperm.mem_iff.mp hi) s
  refine ⟨t, _, s.sysReset, hrun, rfl, ?_⟩
  calc t.observable = (l.foldl State.resetPart s).observable := observable_congr_silent ht
    _ = (resetParts.foldl State.resetPart s).observable := by rw [foldl_resetPart_of_perm hperm]
    _ = s.sysReset.observable := foldl_resetParts_observable s

/-! ### The whole reset and the teardowns (R260 to R262) -/

/-- Of the words with the code of `SYS.RESET` the operand byte is ignored (R104, R105). -/
theorem decode_sysReset_word (d : Byte) : decode (.word (d.setWidth 16)) = .ok .sysReset := by
  have hword : d.setWidth 16 = stimulusWord 0x00 d := by simp [stimulusWord, half]
  simp [hword, decode, decodeWord]

/-- Settles O35: each value of R50 stands in the state `SYS.RESET` builds, and every counter of it is zero. -/
theorem sysResetGivesTheStatedValues : Obligations.SysResetGivesTheStatedValues :=
  ⟨decode_sysReset_word, fun s => ⟨s.sysReset, rfl, rfl, rfl, rfl, rfl, rfl, rfl, rfl, rfl, rfl, rfl, rfl, rfl, rfl, rfl,
    rfl, zero_get, rfl⟩⟩

/-- Settles O37: each teardown's word decodes to it, and its next state is its definition, whole. -/
theorem teardownResetsOneLink : Obligations.TeardownResetsOneLink :=
  ⟨rfl, rfl, fun _ => ⟨rfl, rfl⟩⟩

/-! ### Reading a counter (R264) -/

/-- The counters in the order of R41's index. -/
def Counter.inOrder : List Counter :=
  [.fetRxFrames, .fetRxBytes, .fetTxFrames, .fetTxBytes, .fetDiscFrames, .fetDiscBytes,
    .rspRxFrames, .rspRxBytes, .rspTxFrames, .rspTxBytes, .rspDiscFrames, .rspDiscBytes, .rspAcks, .rspNaks]

/-- An index names the counter at its place in R41's order, and past the last place none. -/
theorem Counter.ofIndex_eq_getElem? (i : Byte) : Counter.ofIndex i = Counter.inOrder[i.toNat]? := by
  fun_cases Counter.ofIndex i
  case case15 =>
    have hpast : 14 ≤ i.toNat := by
      simp only [imp_false] at *
      omega
    exact (List.getElem?_eq_none hpast).symm
  all_goals
    rename_i hplace
    rw [hplace]
    rfl

/-- The indices above 13 name no counter. -/
theorem Counter.ofIndex_eq_none {i : Byte} (h : 13 < i.toNat) : Counter.ofIndex i = none :=
  (Counter.ofIndex_eq_getElem? i).trans (List.getElem?_eq_none h)

/-- `STAT.READ` reports the counter its index names and changes no state. -/
theorem exec_statRead_of_ofIndex {i : Byte} {c : Counter} (h : Counter.ofIndex i = some c) (s : State) :
    exec (.statRead i) s = .next (s.quiet.answer (.count (s.stats.get c))) := by
  simp [exec, execStatRead, h]

/-- With an index that names no counter `STAT.READ` is refused. -/
theorem exec_statRead_of_ofIndex_none {i : Byte} (h : Counter.ofIndex i = none) (s : State) :
    exec (.statRead i) s = .refused (.reservedCounter i) := by
  simp [exec, execStatRead, h]

/-- The word of `STAT.READ` with an index above 13 does not decode (R106). -/
theorem decode_statRead_word_error {i : Byte} (h : 13 < i.toNat) :
    decode (.word (0x0300 + i.setWidth 16)) = .error (.reservedCounter i) := by
  have hword : (0x0300 : Half) + i.setWidth 16 = stimulusWord 0x03 i := (stimulusWord_eq_add 0x03 i).symm
  have hi : ¬i ≤ 13 := Nat.not_le.mpr h
  rw [hword]
  simpa [decode, decodeWord] using hi

/-- Settles O38: the index is a place in R41's order; `STAT.READ` reports the counter there, and where there is none it is
refused, as an operation and as a word. -/
theorem statReadReportsTheIndexedCounter : Obligations.StatReadReportsTheIndexedCounter := by
  intro s i
  refine ⟨fun hi => ?word, fun n hn => ?reported, fun hi => ⟨?refused, fun rest => ?step⟩⟩
  case word => exact decode_code_add (c := 0x03) (i := .statRead i) (decide_eq_true hi) rfl
  case reported =>
    have hget : (Counter.inOrder.map s.stats.get)[i.toNat]? = some n := hn
    rw [List.getElem?_map, ← Counter.ofIndex_eq_getElem?] at hget
    obtain ⟨c, hc, rfl⟩ := Option.map_eq_some_iff.mp hget
    exact exec_statRead_of_ofIndex hc s
  case refused => exact exec_statRead_of_ofIndex_none (Counter.ofIndex_eq_none hi) s
  case step => exact step_of_decode_error rfl (decode_statRead_word_error hi)

end Sys2Proof.Machine
end

section
/-! Errors (R291, R300) and the unit an event comes from (R292, R305): the condition of each error, the error entry that
follows it, and nothing else raises an error. -/

namespace Sys2Proof.Machine

/-! ### The link of an error -/

/-- Codes 1 to 4 are the FET link's errors. -/
theorem Err.code_le_four_iff (e : Err) : e.code ≤ 4 ↔ e.unit = .frx := by
  cases e <;> decide

/-- Codes from 5 on are the RSP link's errors. -/
theorem Err.five_le_code_iff (e : Err) : 5 ≤ e.code ↔ e.unit = .grx := by
  cases e <;> decide

/-! ### Errors of the FET decoder (R173, R175, R178, R183) -/

/-- The errors byte `b` raises in `FRX` with unit state `u` and buffer capacity `cap` (R291, codes 1 to 4). -/
inductive FrxFails (cap : Nat) (u : Frx) : Byte → Err → Prop where
  /-- A closing sentinel after a payload with another checksum than its own (R178). -/
  | cksum {p : List Byte} {lo hi : Byte} (hm : u.mode = .assemble) (he : u.esc = false) (hbuf : u.buf = p ++ [lo, hi])
      (hck : ¬(lo8 (crc16 p) = lo ∧ hi8 (crc16 p) = hi)) : FrxFails cap u Config.fetSentinel .fetCksum
  /-- A byte to store, escaped or plain, in a full buffer (R183). -/
  | overflow {b : Byte} (hm : u.mode = .assemble) (hb : b ≠ Config.fetSentinel)
      (hx : u.esc = true ∨ b ≠ Config.fetEscape) (hc : u.cnt = cap) : FrxFails cap u b .fetOverflow
  /-- A closing sentinel after a single byte (R175). -/
  | short (hm : u.mode = .assemble) (he : u.esc = false) (hc : u.cnt = 1) :
      FrxFails cap u Config.fetSentinel .fetShort
  /-- A sentinel while an escape is pending (R173). -/
  | abort (hm : u.mode = .assemble) (he : u.esc = true) : FrxFails cap u Config.fetSentinel .fetAbort

/-- Every error of `FRX` is one of the FET link. -/
theorem FrxFails.unit_eq {cap : Nat} {u : Frx} {b : Byte} {e : Err} (h : FrxFails cap u b e) : e.unit = .frx := by
  cases h <;> rfl

section Fet
variable {s : State} {b : Byte} {e : Err} {n : Nat}

/-- A condition of R291 leads to error entry with the count of assembled bytes. -/
theorem exec_of_frxFails {i : Instr} (hi : fetWireByte i = some b) (h : FrxFails s.params.fetRxCap s.frx b e) :
    exec i s = .next (s.fetDiscarded e s.frx.cnt) := by
  have hbyte : exec i s = exec (.frxByte b) s := (exec_of_fetWireByte s hi).trans (exec_of_fetWireByte s rfl).symm
  refine hbyte.trans ?_
  cases h with
  | cksum hm he hbuf hck =>
    have hcnt : s.frx.cnt = _ := congrArg List.length hbuf
    rw [exec_frxByte_of_append hm he hbuf, if_neg hck, hcnt, List.length_append]
    rfl
  | overflow hm hb hx hc =>
    cases he : s.frx.esc with
    | true => exact (exec_frxByte_of_escaped hm he hb).trans (congrArg _ (if_pos hc))
    | false =>
      have hplain : b ≠ Config.fetEscape := hx.resolve_left (by simp [he])
      exact (exec_frxByte_of_plain hm he hb hplain).trans (congrArg _ (if_pos hc))
  | short hm he hc => rw [exec_frxByte_of_short hm he hc, hc]
  | abort hm he => exact exec_frxByte_of_abort hm he

/-- Storing a FET byte raises overflow alone, with the buffer full. -/
theorem err_of_frxStore {v : Byte} (hs : s.report.event = none) (h : (frxStore v s).report.event = some (.err e n)) :
    e = .fetOverflow ∧ s.frx.cnt = s.params.fetRxCap ∧ n = s.frx.cnt := by
  obtain ⟨hc, heq⟩ | ⟨-, heq⟩ := frxStore_cases v s <;> rw [heq] at h
  · cases (raise_event s _ _).symm.trans h
    exact ⟨rfl, hc, rfl⟩
  · cases hs.symm.trans h

/-- A closing sentinel raises an error on one of three conditions. -/
theorem frxFails_of_frxClose (hm : s.frx.mode = .assemble) (hs : s.report.event = none)
    (h : (frxClose s).report.event = some (.err e n)) :
    FrxFails s.params.fetRxCap s.frx Config.fetSentinel e ∧ n = s.frx.cnt := by
  obtain ⟨he, heq⟩ | ⟨-, -, heq⟩ | ⟨he, hc, heq⟩ | ⟨-, -, -, heq⟩ | ⟨he, hc, hck, heq⟩ := frxClose_cases s <;>
    rw [heq] at h
  · cases (raise_event s _ _).symm.trans h
    exact ⟨.abort hm he, rfl⟩
  · cases hs.symm.trans h
  · cases (raise_event s _ _).symm.trans h
    exact ⟨.short hm he hc, hc.symm⟩
  · cases h
  · cases (raise_event s _ _).symm.trans h
    obtain ⟨p, lo, hi, hbuf⟩ := exists_eq_append_pair hc
    rw [hbuf, frxPayload_append, frxRck_append] at hck
    exact ⟨.cksum hm he hbuf fun hsame => hck ((half_eq_iff lo hi _).mpr hsame).symm, rfl⟩

/-- A FET byte raises an error on one of R291's four conditions alone. -/
theorem frxFails_of_frxReceive (hs : s.report.event = none) (h : (frxReceive b s).report.event = some (.err e n)) :
    FrxFails s.params.fetRxCap s.frx b e ∧ n = s.frx.cnt := by
  obtain ⟨-, -, heq⟩ | ⟨-, -, heq⟩ | ⟨hm, rfl, heq⟩ | ⟨hm, hb, he, heq⟩ | ⟨-, -, -, heq⟩ | ⟨hm, hb, hx, -, heq⟩ :=
    frxReceive_cases b s <;> rw [heq] at h
  · cases hs.symm.trans h
  · cases hs.symm.trans h
  · exact frxFails_of_frxClose hm hs h
  · obtain ⟨rfl, hc, hn⟩ := err_of_frxStore (s := { s with frx := { s.frx with esc := false } }) hs h
    exact ⟨.overflow hm hb (.inl he) hc, hn⟩
  · cases hs.symm.trans h
  · obtain ⟨rfl, hc, hn⟩ := err_of_frxStore hs h
    exact ⟨.overflow hm hb (.inr hx) hc, hn⟩

end Fet

/-! ### Errors of the RSP receiver (R210, R213, R214) -/

/-- The errors byte `b` raises in `GRX` with unit state `u` and buffer capacity `cap` (R291, codes 5 to 7). -/
inductive GrxFails (cap : Nat) (u : Grx) (b : Byte) : Err → Prop where
  /-- A second digit that makes another checksum than the payload's sum (R213). -/
  | cksum {d : Byte} (hm : u.mode = .cksum) (hd : u.digit = true) (hb : hexval b = some d)
      (hsum : u.sum ≠ u.rck ||| d) : GrxFails cap u b .rspCksum
  /-- A byte to store in a full buffer (R210). -/
  | overflow (hm : u.mode = .payload) (hend : b ≠ Config.rspEnd) (hescape : b ≠ Config.rspEscape) (hc : u.cnt = cap) :
      GrxFails cap u b .rspOverflow
  /-- A byte that is no hex digit in the checksum field (R214). -/
  | nonhex (hm : u.mode = .cksum) (hb : hexval b = none) : GrxFails cap u b .rspNonhex

/-- Every error of `GRX` is one of the RSP link. -/
theorem GrxFails.unit_eq {cap : Nat} {u : Grx} {b : Byte} {e : Err} (h : GrxFails cap u b e) : e.unit = .grx := by
  cases h <;> rfl

section Rsp
variable {s : State} {b : Byte} {e : Err} {n : Nat}

/-- A condition of R291 leads to error entry with the count of payload bytes. -/
theorem exec_of_grxFails {i : Instr} (hi : rspWireByte i = some b) (h : GrxFails s.params.rspRxCap s.grx b e) :
    exec i s = .next (s.rspDiscarded e s.grx.cnt) := by
  refine (exec_eq_of_rspWireByte s hi rfl : exec i s = exec (.grxByte b) s).trans ?_
  cases h with
  | cksum hm hd hb hsum => exact exec_grxByte_wrong_digit_of_cksum hm hb hd hsum
  | overflow hm hend hescape hc => exact (exec_grxByte_data_of_payload hm hend hescape).trans (congrArg _ (if_pos hc))
  | nonhex hm hb => exact exec_grxByte_nonhex_of_cksum hm hb

/-- Storing an RSP byte raises overflow alone, with the buffer full. -/
theorem err_of_grxStore {v : Byte} (hs : s.report.event = none) (h : (grxStore v s).report.event = some (.err e n)) :
    e = .rspOverflow ∧ s.grx.cnt = s.params.rspRxCap ∧ n = s.grx.cnt := by
  obtain ⟨hc, heq⟩ | ⟨-, heq⟩ := grxStore_cases v s <;> rw [heq] at h
  · cases (raise_event s _ _).symm.trans h
    exact ⟨rfl, hc, rfl⟩
  · cases hs.symm.trans h

/-- A byte in `IDLE` raises no error. -/
theorem grxIdle_event_ne_err (hs : s.report.event = none) : (grxIdle b s).report.event ≠ some (.err e n) := by
  obtain ⟨-, heq⟩ | ⟨-, heq⟩ | ⟨-, heq⟩ | ⟨-, -, -, heq⟩ := grxIdle_cases b s <;> rw [heq]
  · simp [hs]
  · simp
  · simp
  · simp [hs]

/-- A byte in `PAYLOAD` raises overflow alone. -/
theorem grxFails_of_grxPayload (hm : s.grx.mode = .payload) (hs : s.report.event = none)
    (h : (grxPayload b s).report.event = some (.err e n)) : GrxFails s.params.rspRxCap s.grx b e ∧ n = s.grx.cnt := by
  obtain ⟨-, heq⟩ | ⟨-, heq⟩ | ⟨hend, hescape, -, heq⟩ | ⟨hend, hescape, -, heq⟩ := grxPayload_cases b s <;> rw [heq] at h
  · cases hs.symm.trans h
  · cases hs.symm.trans h
  · obtain ⟨rfl, hc, hn⟩ := err_of_grxStore (s := { s with grx := { s.grx with esc := false } }) hs h
    exact ⟨.overflow hm hend hescape hc, hn⟩
  · obtain ⟨rfl, hc, hn⟩ := err_of_grxStore hs h
    exact ⟨.overflow hm hend hescape hc, hn⟩

/-- A byte in `CKSUM` raises an error when it is no digit, or makes a wrong checksum. -/
theorem grxFails_of_grxCksum (hm : s.grx.mode = .cksum) (hs : s.report.event = none)
    (h : (grxCksum b s).report.event = some (.err e n)) : GrxFails s.params.rspRxCap s.grx b e ∧ n = s.grx.cnt := by
  obtain ⟨hb, heq⟩ | ⟨_, -, -, heq⟩ | ⟨_, -, -, -, heq⟩ | ⟨d, hb, hd, hsum, heq⟩ := grxCksum_cases b s <;> rw [heq] at h
  · cases (raise_event s _ _).symm.trans h
    exact ⟨.nonhex hm hb, rfl⟩
  · cases hs.symm.trans h
  · cases h
  · cases (raise_event s _ _).symm.trans h
    exact ⟨.cksum hm hd hb hsum, rfl⟩

/-- An RSP byte raises an error on one of R291's three conditions alone. -/
theorem grxFails_of_grxReceive (hs : s.report.event = none) (h : (grxReceive b s).report.event = some (.err e n)) :
    GrxFails s.params.rspRxCap s.grx b e ∧ n = s.grx.cnt := by
  cases hm : s.grx.mode with
  | idle => exact absurd (grxReceive_of_idle hm ▸ h) (grxIdle_event_ne_err hs)
  | payload => exact grxFails_of_grxPayload hm hs (grxReceive_of_payload hm ▸ h)
  | cksum => exact grxFails_of_grxCksum hm hs (grxReceive_of_cksum hm ▸ h)

end Rsp

/-! ### All operations -/

section Exec
variable {i : Instr} {s t : State} {e : Err} {n : Nat}

/-- An operation that raises an error received a byte on the error's link that meets the error's condition. -/
theorem fails_of_exec_err (h : exec i s = .next t) (hev : t.report.event = some (.err e n)) :
    (∃ b, fetWireByte i = some b ∧ FrxFails s.params.fetRxCap s.frx b e ∧ n = s.frx.cnt) ∨
    (∃ b, rspWireByte i = some b ∧ GrxFails s.params.rspRxCap s.grx b e ∧ n = s.grx.cnt) := by
  have hrep : ExecReports i s (some (.err e n)) := hev ▸ exec_reports h
  cases hrep with
  | frx b hi =>
    cases (exec_of_fetWireByte s hi).symm.trans h
    exact .inl ⟨b, hi, frxFails_of_frxReceive (s := s.quiet) rfl hev⟩
  | grx b hi =>
    cases (exec_of_rspWireByte s hi).symm.trans h
    exact .inr ⟨b, hi, grxFails_of_grxReceive (s := s.quiet) rfl hev⟩

/-- The FET link's errors are raised exactly on `FRX`'s conditions. -/
theorem raises_fet_iff (he : e.unit = .frx) :
    (∃ t, exec i s = .next t ∧ t.report.event = some (.err e n)) ↔
      ∃ b, fetWireByte i = some b ∧ FrxFails s.params.fetRxCap s.frx b e ∧ n = s.frx.cnt := by
  constructor
  · rintro ⟨t, h, hev⟩
    refine (fails_of_exec_err h hev).resolve_right ?_
    rintro ⟨b, -, hfails, -⟩
    cases he.symm.trans hfails.unit_eq
  · rintro ⟨b, hi, hfails, rfl⟩
    exact ⟨_, exec_of_frxFails hi hfails, rfl⟩

/-- The RSP link's errors are raised exactly on `GRX`'s conditions. -/
theorem raises_rsp_iff (he : e.unit = .grx) :
    (∃ t, exec i s = .next t ∧ t.report.event = some (.err e n)) ↔
      ∃ b, rspWireByte i = some b ∧ GrxFails s.params.rspRxCap s.grx b e ∧ n = s.grx.cnt := by
  constructor
  · rintro ⟨t, h, hev⟩
    refine (fails_of_exec_err h hev).resolve_left ?_
    rintro ⟨b, -, hfails, -⟩
    cases he.symm.trans hfails.unit_eq
  · rintro ⟨b, hi, hfails, rfl⟩
    exact ⟨_, exec_of_grxFails hi hfails, rfl⟩

end Exec

/-- Settles O40: an operation that raises an error meets the error's condition, and from there the next state is the
error entry of its link. -/
theorem errorEntryResynchronisesOneReceiver : Obligations.ErrorEntryResynchronisesOneReceiver := by
  intro i s t e n h hev
  constructor <;> intro hcode
  · obtain ⟨b, hi, hfails, rfl⟩ := (raises_fet_iff ((Err.code_le_four_iff e).mp hcode)).mp ⟨t, h, hev⟩
    cases (exec_of_frxFails hi hfails).symm.trans h
    exact ⟨rfl, rfl⟩
  · obtain ⟨b, hi, hfails, rfl⟩ := (raises_rsp_iff ((Err.five_le_code_iff e).mp hcode)).mp ⟨t, h, hev⟩
    cases (exec_of_grxFails hi hfails).symm.trans h
    exact ⟨rfl, rfl⟩

/-- Settles O41: on each link an error is raised exactly when its own condition holds, which R291 states row by row. -/
theorem errorsAreRaisedExactlyOnTheirConditions : Obligations.ErrorsAreRaisedExactlyOnTheirConditions := by
  intro i s n
  refine ⟨by decide, (raises_fet_iff rfl).trans ?fetCksum, (raises_fet_iff rfl).trans ?fetOverflow,
    (raises_fet_iff rfl).trans ?fetShort, (raises_fet_iff rfl).trans ?fetAbort, (raises_rsp_iff rfl).trans ?rspCksum,
    (raises_rsp_iff rfl).trans ?rspOverflow, (raises_rsp_iff rfl).trans ?rspNonhex⟩
  case fetCksum => exact
    ⟨fun ⟨_, hi, .cksum hm he hbuf hck, hn⟩ => ⟨hi, hm, he, hn, _, _, _, hbuf, hck⟩,
      fun ⟨hi, hm, he, hn, _, _, _, hbuf, hck⟩ => ⟨_, hi, .cksum hm he hbuf hck, hn⟩⟩
  case fetOverflow => exact
    ⟨fun ⟨b, hi, .overflow hm hb hx hc, hn⟩ => ⟨b, hi, hm, hb, hx, hc, hn.trans hc⟩,
      fun ⟨b, hi, hm, hb, hx, hc, hn⟩ => ⟨b, hi, .overflow hm hb hx hc, hn.trans hc.symm⟩⟩
  case fetShort => exact
    ⟨fun ⟨_, hi, .short hm he hc, hn⟩ => ⟨hi, hm, he, hc, hn.trans hc⟩,
      fun ⟨hi, hm, he, hc, hn⟩ => ⟨_, hi, .short hm he hc, hn.trans hc.symm⟩⟩
  case fetAbort => exact
    ⟨fun ⟨_, hi, .abort hm he, hn⟩ => ⟨hi, hm, he, hn⟩, fun ⟨hi, hm, he, hn⟩ => ⟨_, hi, .abort hm he, hn⟩⟩
  case rspCksum => exact
    ⟨fun ⟨b, hi, .cksum hm hd hb hsum, hn⟩ => ⟨b, _, hi, hm, hd, hb, hsum, hn⟩,
      fun ⟨b, _, hi, hm, hd, hb, hsum, hn⟩ => ⟨b, hi, .cksum hm hd hb hsum, hn⟩⟩
  case rspOverflow => exact
    ⟨fun ⟨b, hi, .overflow hm hend hescape hc, hn⟩ => ⟨b, hi, hm, hend, hescape, hc, hn.trans hc⟩,
      fun ⟨b, hi, hm, hend, hescape, hc, hn⟩ => ⟨b, hi, .overflow hm hend hescape hc, hn.trans hc.symm⟩⟩
  case rspNonhex => exact
    ⟨fun ⟨b, hi, .nonhex hm hb, hn⟩ => ⟨b, hi, hm, hb, hn⟩, fun ⟨b, hi, hm, hb, hn⟩ => ⟨b, hi, .nonhex hm hb, hn⟩⟩

/-! ### The unit of an event (R292, R305) -/

/-- A FET step that reports an event found the transport ready (R151). -/
theorem ready_of_ftxStep_event {r : Bool} {s t : State} {ev : Event} (h : exec (.ftxStep r) s = .next t)
    (hev : t.report.event = some ev) : r = true := by
  cases r with
  | true => rfl
  | false =>
    cases (exec_ftxStep_of_refused (.inr rfl)).symm.trans h
    cases hev

/-- An RSP step that reports an event found the transport ready (R234). -/
theorem ready_of_gtxStep_event {r : Bool} {s t : State} {ev : Event} (h : exec (.gtxStep r) s = .next t)
    (hev : t.report.event = some ev) : r = true := by
  cases r with
  | true => rfl
  | false =>
    cases (exec_gtxStep_of_refused (.inr rfl)).symm.trans h
    cases hev

/-- Settles O42: of all that an operation can report, a delivery, an acknowledgement or an error is a reception's, and a
retirement is an accepted transmit step's. -/
theorem eventsComeFromTheirOwnUnit : Obligations.EventsComeFromTheirOwnUnit := by
  intro i s t ev h hev
  have hrep : ExecReports i s (some ev) := hev ▸ exec_reports h
  cases hrep with
  | ftxRetired r hi =>
    subst hi
    cases ready_of_ftxStep_event h hev
    exact .inr (.inr (.inl ⟨rfl, rfl⟩))
  | gtxRetired r hi =>
    subst hi
    cases ready_of_gtxStep_event h hev
    exact .inr (.inr (.inr ⟨rfl, rfl⟩))
  | frx b hi hfrx =>
    refine .inl ⟨(fetWireByte_isSome_iff i).mp (by simp [hi]), ?_⟩
    cases hfrx with
    | error e n he => exact .inr ⟨e, n, rfl, (Err.code_le_four_iff e).mpr he⟩
    | delivery p => exact .inl ⟨p, rfl⟩
  | grx b hi hgrx =>
    refine .inr (.inl ⟨(rspWireByte_isSome_iff i).mp (by simp [hi]), ?_⟩)
    cases hgrx with
    | ack => exact .inr (.inl rfl)
    | nak => exact .inr (.inr (.inl rfl))
    | error e n he => exact .inr (.inr (.inr ⟨e, n, rfl, (Err.five_le_code_iff e).mpr he⟩))
    | delivery => exact .inl ⟨_, rfl⟩

end Sys2Proof.Machine
end

section
/-! Recovery by input alone (R301, R310): two bytes bring each receiver, from whatever state it is in, to where the next
frame is delivered. -/

namespace Sys2Proof.Machine

/-! ### Resynchronisation of the FET decoder (R170 to R178) -/

/-- A sentinel leaves nothing assembled and no escape pending, from every state. -/
theorem frxReceive_sentinel_clears (s : State) :
    (frxReceive Config.fetSentinel s).frx.buf = [] ∧ (frxReceive Config.fetSentinel s).frx.esc = false := by
  cases hm : s.frx.mode with
  | hunt => simp [frxReceive_sentinel_of_hunt hm]
  | assemble =>
    rw [frxReceive_sentinel_of_assemble hm]
    obtain ⟨-, heq⟩ | ⟨he, hc, heq⟩ | ⟨-, -, heq⟩ | ⟨he, -, -, heq⟩ | ⟨-, -, -, heq⟩ := frxClose_cases s <;> rw [heq]
    · rw [raise_fet s _ _ rfl]; exact ⟨rfl, rfl⟩
    · exact ⟨List.length_eq_zero_iff.mp hc, he⟩
    · rw [raise_fet s _ _ rfl]; exact ⟨rfl, rfl⟩
    · exact ⟨rfl, he⟩
    · rw [raise_fet s _ _ rfl]; exact ⟨rfl, rfl⟩

/-- Two sentinels leave the decoder in `ASSEMBLE` and empty, from every state. -/
theorem fet_resynchronises (s : State) :
    ∃ rs t, Yields (frxFeed [0x7E, 0x7E]) s rs t ∧ t.frx = { mode := .assemble, buf := [], esc := false } ∧
      t.params = s.params := by
  obtain ⟨hbuf, hesc⟩ := frxReceive_sentinel_clears s.quiet
  have hfirst : Yields [.frxByte Config.fetSentinel] s _ (frxReceive Config.fetSentinel s.quiet) :=
    .of_exec (exec_of_fetWireByte s rfl) rfl rfl
  exact ⟨_, _, hfirst.append (fet_receives_sof hbuf hesc), rfl, ((LocalTo.quiet .frx s).frxReceive _).params⟩

/-! ### Resynchronisation of the RSP receiver (R200 to R214) -/

section Rsp
variable {s : State} {b : Byte}

/-- Only `$` leaves `IDLE`. -/
theorem grxIdle_mode (hm : s.grx.mode = .idle) (hb : b ≠ Config.rspStart) : (grxIdle b s).grx.mode = .idle := by
  obtain ⟨hstart, -⟩ | ⟨-, heq⟩ | ⟨-, heq⟩ | ⟨-, -, -, heq⟩ := grxIdle_cases b s
  · exact absurd hstart hb
  all_goals rw [heq]; exact hm

/-- Outside `PAYLOAD` a byte that is neither `$` nor a hex digit leads to `IDLE`. -/
theorem grxReceive_mode_idle (hm : s.grx.mode ≠ .payload) (hb : b ≠ Config.rspStart) (hx : hexval b = none) :
    (grxReceive b s).grx.mode = .idle := by
  cases hmode : s.grx.mode with
  | idle => exact grxReceive_of_idle hmode ▸ grxIdle_mode hmode hb
  | payload => exact absurd hmode hm
  | cksum =>
    rw [grxReceive_of_cksum hmode, grxCksum_nonhex hx, raise_rsp s _ _ rfl]
    rfl

/-- `#` ends a payload: no state holds one after it. -/
theorem grxReceive_end_mode_ne_payload (s : State) : (grxReceive Config.rspEnd s).grx.mode ≠ .payload := by
  by_cases hm : s.grx.mode = .payload
  · simp [grxReceive_of_payload hm, grxPayload_end]
  · simp [grxReceive_mode_idle (s := s) (b := Config.rspEnd) hm (by decide) (by decide)]

/-- `#` and `x`, which is no hex digit, leave the receiver in `IDLE`, from every state. -/
theorem rsp_resynchronises (s : State) :
    ∃ rs t, Yields (grxFeed [0x23, 0x78]) s rs t ∧ t.grx.mode = .idle ∧ t.params = s.params := by
  have hfirst : Yields [.grxByte Config.rspEnd] s _ (grxReceive Config.rspEnd s.quiet).quiet :=
    .of_exec (exec_of_rspWireByte s rfl) rfl rfl
  have hmode : (grxReceive Config.rspEnd s.quiet).quiet.grx.mode ≠ .payload := grxReceive_end_mode_ne_payload s.quiet
  have hparams : (grxReceive Config.rspEnd s.quiet).params = s.params := ((LocalTo.quiet .grx s).grxReceive _).params
  exact ⟨_, _, hfirst.append (.of_exec (exec_of_rspWireByte (b := 0x78) _ rfl) rfl rfl),
    grxReceive_mode_idle hmode (by decide) (by decide),
    ((LocalTo.quiet .grx _).grxReceive _).params.trans hparams⟩

end Rsp

/-! ### The next frame -/

/-- What is reported last of a sequence is the last event of its last part. -/
theorem getLast?_events_append {rs rs' : List Report} {ev : Event} (h : events rs' = [ev]) :
    (events (rs ++ rs')).getLast? = some ev := by
  simp [events_append, h]

/-- Two sentinels, then an encoded payload that fits: the payload is delivered last, from every state. -/
theorem fet_recovers (p : List Byte) (s : State) (hroom : p.length + 2 ≤ s.params.fetRxCap) :
    ∃ t rs, runAll (frxFeed ([0x7E, 0x7E] ++ fetEncode p)) s = some (t, rs) ∧
      (events rs).getLast? = some (.deliver .frx p) ∧ t.frx = { mode := .assemble, buf := [], esc := false } := by
  obtain ⟨rs, t, hsync, hfrx, hparams⟩ := fet_resynchronises s
  obtain ⟨rs', hframe, hev⟩ := fet_receives_frame (s := t) p (by rw [hfrx]) (by rw [hfrx]) (hparams ▸ hroom)
  obtain ⟨u, hrun, hu⟩ := hsync.append hframe
  exact ⟨u, _, hrun, getLast?_events_append hev, congrArg State.frx hu⟩

/-- `#` and `x`, then an encoded payload that fits: the payload is delivered last, from every state. -/
theorem rsp_recovers (p : List Byte) (s : State) (hroom : p.length ≤ s.params.rspRxCap) :
    ∃ t rs, runAll (grxFeed ([0x23, 0x78] ++ rspEncode p)) s = some (t, rs) ∧
      (events rs).getLast? = some (.deliver .grx p) ∧ t.grx = Grx.reset := by
  obtain ⟨rs, t, hsync, hidle, hparams⟩ := rsp_resynchronises s
  obtain ⟨rs', hframe, hev⟩ := rsp_receives_frame (s := t) p hidle (hparams ▸ hroom)
  obtain ⟨u, hrun, hu⟩ := hsync.append hframe
  exact ⟨u, _, hrun, getLast?_events_append hev, congrArg State.grx hu⟩

/-- Settles O34: two sentinels empty the FET decoder and `#` with `x` leads the RSP receiver to `IDLE`; a frame received
from there is delivered. -/
theorem receiversRecoverByInputAlone : Obligations.ReceiversRecoverByInputAlone := fun p s =>
  ⟨fet_recovers p s, rsp_recovers p s⟩

end Sys2Proof.Machine
end
